-- ==== Sys2Proof/Word.lean ====
section
/-! DEFINITION. The two word types of the PGU: the byte (spec/00_scope.md R9) and the 64-bit register word (R7). -/

namespace Sys2Proof

/-- A byte, a value 0 to 255 (R9). -/
abbrev Byte := BitVec 8

/-- A register value, 64 bits, unsigned (R7, spec/10_state.md R15). -/
abbrev Word := BitVec 64

end Sys2Proof
end

