-- ==== Sys2Proof/Config.lean ====
section
/-! DEFINITION. The parameters of spec/00_scope.md R6, the constants of R5, and the free values of the model (opaque:
nothing in Lean can evaluate one or prove a value of it). -/

namespace Sys2Proof

/-- `PARTS`: the device is divided into roughly this many parts (R5). -/
def Config.parts : Nat := 1000

/-- `DEFAULT_SECTOR`: the sector size used when the reported one is 0 (R5). -/
def Config.defaultSector : Nat := 512

/-- `MIN_BLOCK_SIZE`, 1 MiB (R5). -/
def Config.minBlockSize : Nat := 1048576

/-- `MAX_BLOCK_SIZE`, 128 MiB (R5). -/
def Config.maxBlockSize : Nat := 134217728

/-- The tweakable cipher pair `TBC` (spec/41_pattern_engine.md R85): first sub-key, second sub-key, tweak, data. -/
structure Tbc where
  enc : List Byte → List Byte → List Byte → List Byte → List Byte
  dec : List Byte → List Byte → List Byte → List Byte → List Byte

/-- Law T5, the domain of data lengths: multiples of 16, at least 16, up to `BUF_CAP` (R90). -/
def Tbc.inDomain (cap n : Nat) : Prop := 16 ≤ n ∧ n % 16 = 0 ∧ n ≤ cap

/-- Laws T1, T2 and T4 (R86, R87, R89) over 16-byte sub-keys and tweak and data of the domain of T5 below
the buffer capacity `cap`. T3 (R88) is that `enc` and `dec` are functions. -/
structure Tbc.Lawful (cap : Nat) (c : Tbc) : Prop where
  /-- T1 for the encrypt direction. -/
  enc_length : ∀ k1 k2 t s : List Byte, k1.length = 16 → k2.length = 16 → t.length = 16 →
    Tbc.inDomain cap s.length → (c.enc k1 k2 t s).length = s.length
  /-- T1 for the decrypt direction. -/
  dec_length : ∀ k1 k2 t s : List Byte, k1.length = 16 → k2.length = 16 → t.length = 16 →
    Tbc.inDomain cap s.length → (c.dec k1 k2 t s).length = s.length
  /-- T2, first equation. -/
  dec_enc : ∀ k1 k2 t s : List Byte, k1.length = 16 → k2.length = 16 → t.length = 16 →
    Tbc.inDomain cap s.length → c.dec k1 k2 t (c.enc k1 k2 t s) = s
  /-- T2, second equation. -/
  enc_dec : ∀ k1 k2 t s : List Byte, k1.length = 16 → k2.length = 16 → t.length = 16 →
    Tbc.inDomain cap s.length → c.enc k1 k2 t (c.dec k1 k2 t s) = s
  /-- T4 for the encrypt direction. -/
  enc_take : ∀ (k1 k2 t s : List Byte) (m : Nat), k1.length = 16 → k2.length = 16 → t.length = 16 →
    Tbc.inDomain cap s.length → Tbc.inDomain cap m → m ≤ s.length →
    (c.enc k1 k2 t s).take m = c.enc k1 k2 t (s.take m)
  /-- T4 for the decrypt direction. -/
  dec_take : ∀ (k1 k2 t s : List Byte) (m : Nat), k1.length = 16 → k2.length = 16 → t.length = 16 →
    Tbc.inDomain cap s.length → Tbc.inDomain cap m → m ≤ s.length →
    (c.dec k1 k2 t s).take m = c.dec k1 k2 t (s.take m)

/-- The parameters a model of the unit takes as its configuration (R6). -/
structure Config where
  /-- `BUF_CAP`, the buffer's size in bytes. -/
  bufCap : Nat
  /-- `TBC`, the cipher. -/
  tbc : Tbc
  /-- `TWEAK_SEED`, a 128-bit number. -/
  tweakSeed : BitVec 128
  /-- `EXIT_CONFIG`, the host's exit status for a configuration error. -/
  exitConfig : Nat

/-- What R6 requires of the parameters: `BUF_CAP` a multiple of 16 and at least 16, a lawful cipher, `EXIT_CONFIG`
non-zero and not 2. -/
structure Config.Valid (cfg : Config) : Prop where
  cap_mul : cfg.bufCap % 16 = 0
  cap_min : 16 ≤ cfg.bufCap
  lawful : cfg.tbc.Lawful cfg.bufCap
  exit_ne_zero : cfg.exitConfig ≠ 0
  exit_ne_two : cfg.exitConfig ≠ 2

/-- `PGU_BASE` and `BUF_BASE`, open platform parameters with no default (R6, spec/20_memory.md R42). -/
structure BusMap where
  pguBase : Nat
  bufBase : Nat
  deriving DecidableEq, Repr

/-- FREE VALUE (log 1): the byte BUF holds at an index nothing has written since the given reset
(spec/10_state.md R37, spec/93_implementation_defined.md U1). Arguments: the reset's number, the index. -/
opaque Config.bufDraw : Nat → Nat → BitVec 8

/-- FREE VALUE (log 2): what a KEY register holds after the given reset until it is written (R37, U2). Arguments: the
reset's number, the register's number 0 to 3. -/
opaque Config.keyDraw : Nat → Nat → BitVec 64

/-- FREE VALUE (log 5): the device's byte at an offset nothing has written (spec/50_host_pass_driver.md R104). -/
opaque Config.devDraw : Nat → BitVec 8

/-- FREE VALUE (log 6): byte `j` of the `n`-th key the host draws from its random source (R113). Arguments: `n`, `j`. -/
opaque Config.randomKeyByte : Nat → Nat → BitVec 8

/-- FREE VALUE (log 12): whether a buffer transfer of no bytes at an index above `BUF_CAP` raises E_BUFRANGE; the spec
gives the transfers for `n >= 1` (spec/20_memory.md R43, R44). Argument: the index. -/
opaque Config.emptyPastEnd : Nat → Bool

/-- FREE VALUE (log 7): what the default cipher makes of a byte past the last whole cipher block, outside the domain of
law T5 (R90). -/
opaque Config.cipherTail : BitVec 8 → BitVec 8

end Sys2Proof
end

