-- ==== Sys2Proof/Syntax.lean ====
section
/-! DEFINITION. The commands (one constructor per row of spec/opcode_table.json), the host primitives and the
script lines that carry them. -/

namespace Sys2Proof

/-- The eight commands of spec/30_encoding.md R54. A command carries no operand (R53). -/
inductive Instr where
  | choose
  | count
  | offset
  | startblk
  | zero
  | fill
  | invert
  | check
  deriving DecidableEq, Repr

/-- A register number, 0x00 to 0x1F: numbers above do not exist (spec/10_state.md R15, R32). -/
abbrev RegNum := BitVec 5

/-- What the host's queue holds: the four host primitives (spec/00_scope.md R11), the two host-side device
actions of spec/30_encoding.md R58, and the platform's reset input (spec/70_reset_and_hazards.md R136).
`Cmd(w)` is `regWrite` to register 0x00 (R52). -/
inductive HostOp where
  | regWrite (r : RegNum) (v : Word)
  | regRead (r : RegNum)
  | memWrite (addr : Nat) (data : List Byte)
  | memRead (addr n : Nat)
  | devWrite
  | devRead
  | reset
  deriving DecidableEq, Repr

/-- A line of a script: the base lines and the two device lines of R58, then the five pseudo-instructions of R59. -/
inductive ScriptLine where
  | wr (r : RegNum) (v : Word)
  | rd (r : RegNum)
  | mnemonic (i : Instr)
  | cmdw (w : Word)
  | bufwr (addr : Nat) (data : List Byte)
  | bufrd (addr n : Nat)
  | devwr
  | devrd
  | setkey (key : List Byte)
  | plan
  | rangeOf (i : Word)
  | pattern
  | verify
  deriving DecidableEq, Repr

end Sys2Proof
end

