-- ==== Sys2Proof/Machine/State.lean ====
section
/-! DEFINITION. The state: the unit (`Pgu`, spec/10_state.md), the host that drives it and the device the host owns
(`HostSide`, spec/50_host_pass_driver.md), the reasons the model stops, and the machine after reset. -/

namespace Sys2Proof.Machine

/-- Byte storage: the bytes written so far as (address, byte) pairs, addresses strictly rising. An address that is not
listed has not been written; what a read of it gives is the free draw of `Pgu.bufByte` or `HostSide.devByte` (log 1). -/
abbrev Mem := List Host.Cell

/-- The fault codes of spec/60_exceptions.md R121, by name. -/
inductive ErrCode where
  | illCmd
  | illReg
  | range
  | bufRange
  | diskSize
  | blkSize
  | bufCap
  | startOff
  | index
  | key
  | len
  | mismatch
  deriving DecidableEq, Repr

/-- The unit: every register of spec/10_state.md R15 that holds state, and the buffer. CMD holds none (R16), BUSY and
the reserved fields read 0 (R17, R18, R20), reserved numbers hold none (R32). -/
structure Pgu where
  /-- STATUS.ERR: no fault, or the first fault since reset (R17). -/
  err : Option ErrCode
  /-- STATUS.KEYW: bit `n` is set when KEY`n` has been written since reset (R17). -/
  keyw : BitVec 4
  /-- CTRL.OVR_EN (R18). -/
  ovrEn : Bool
  /-- DISK_SIZE (R19). -/
  diskSize : Word
  /-- SECTOR_SIZE, bits 31:0; bits 63:32 read 0 (R20). -/
  sectorSize : BitVec 32
  /-- OVERRIDE (R21). -/
  ovr : Word
  /-- START_OFFSET (R22). -/
  startOffset : Word
  /-- INDEX (R23). -/
  index : Word
  /-- BLOCK_SIZE (R24). -/
  blockSize : Word
  /-- BLOCK_COUNT (R25). -/
  blockCount : Word
  /-- START (R26). -/
  start : Word
  /-- END (R27). -/
  endOff : Word
  /-- LEN (R28). -/
  len : Word
  /-- START_BLOCK (R29). -/
  startBlock : Word
  /-- BADOFF (R30). -/
  badOff : Word
  /-- KEY0 (R31). -/
  key0 : Word
  /-- KEY1 (R31). -/
  key1 : Word
  /-- KEY2 (R31). -/
  key2 : Word
  /-- KEY3 (R31). -/
  key3 : Word
  /-- The bytes of BUF written since reset (R33). -/
  buf : Mem
  /-- The MODEL's own field (log 3): how many resets there have been, so that the free draws are fresh after each one
  (spec/70_reset_and_hazards.md R138). -/
  epoch : Nat
  deriving DecidableEq, Repr

/-- What a read primitive returned to the host (spec/20_memory.md R40, R43). -/
inductive Reply where
  | value (v : Word)
  | bytes (data : List Byte)
  deriving DecidableEq, Repr

/-- How the device answers one transfer: a free input (spec/50_host_pass_driver.md R104). -/
inductive DevAnswer where
  /-- the bytes move unchanged. -/
  | faithful
  /-- the given bytes move in place of those asked for, with no error reported; another number of bytes than asked for
  is a short or an overlong transfer, which fails (log 5). -/
  | altered (data : List Byte)
  /-- the transfer fails; a write leaves the given bytes from the range's first on, so that the range may hold anything
  afterwards (log 5). -/
  | ioError (stored : List Byte)
  deriving DecidableEq, Repr

/-- The host's immutable configuration value of a run (R101, R102, R113). -/
structure Request where
  /-- the sector size as discovered, 0 if unavailable (R102). -/
  sectorSize : BitVec 32
  /-- the user's explicit block size, if any (R103). -/
  ovr : Option Word
  /-- the user's start byte offset, 0 if none (R103). -/
  startOffset : Word
  /-- a write pass in random mode is requested (R101). -/
  wantRandom : Bool
  /-- a write pass in zero mode is requested (R101). -/
  wantZero : Bool
  /-- the user's key as typed, or none if a key is to be generated (R113). -/
  key : Option (List Char)
  /-- the host goes on in random mode although the device size is not a multiple of 16 (R118, R143). -/
  acceptOddSize : Bool
  deriving DecidableEq, Repr

/-- How a run ended (spec/50_host_pass_driver.md R110). -/
inductive RunEnd where
  /-- (e) the verify pass finished with ERR = 0. -/
  | success
  /-- (a) a configuration error. -/
  | configError
  /-- (b) a device I/O error. -/
  | ioError
  /-- (c) E_MISMATCH after a CHECK; the offset is BADOFF. -/
  | mismatch (off : Word)
  /-- (d) any other fault. -/
  | contractError
  deriving DecidableEq, Repr

/-- Where the pass driver stands (R105): what it does the next time its queue is empty. -/
inductive Phase where
  /-- no run. -/
  | idle
  /-- a run is asked for; the configuration sequence is to be issued (R103). -/
  | starting
  /-- STATUS has been read after the configuration (R103 step 8). -/
  | configured
  /-- START_BLOCK and BLOCK_COUNT have been read (R106). -/
  | planned
  /-- the write pass is at block `i` (R107). -/
  | writing (i : Nat)
  /-- the verify pass is at block `i` (R108). -/
  | verifying (i : Nat)
  /-- STATUS has been read after block `i` of the verify pass (R108). -/
  | judging (i : Nat)
  /-- BADOFF has been read after E_MISMATCH (R110 c). -/
  | reporting
  /-- the run is over. -/
  | ended (e : RunEnd)
  deriving DecidableEq, Repr

/-- The host: its queue, what it has read, the device it owns, and its pass driver. -/
structure HostSide where
  /-- the primitives still to issue, oldest first (spec/30_encoding.md R58). -/
  script : List HostOp
  /-- what reads returned, newest first (the MODEL's own record of R40 and R43). -/
  replies : List Reply
  /-- the device's bytes written so far (R104). -/
  dev : Mem
  /-- the device's length in bytes (R102). -/
  devSize : Word
  /-- how the device answers the coming transfers, first first; none left means faithful (R104, log 5). -/
  answers : List DevAnswer
  /-- the run's configuration (R101). -/
  request : Request
  /-- where the run stands (R105). -/
  phase : Phase
  /-- START_BLOCK as the host read it (R106). -/
  startBlock : Word
  /-- BLOCK_COUNT as the host read it (R106). -/
  blockCount : Word
  /-- the MODEL's own field (log 6): how many keys the host has drawn (R113). -/
  keysDrawn : Nat
  deriving DecidableEq, Repr

/-- The whole machine. -/
structure State where
  pgu : Pgu
  host : HostSide
  deriving DecidableEq, Repr

/-- Why the model stops. No command stops it: the unit is never stuck (spec/60_exceptions.md R129) and its own faults
are next states with STATUS.ERR set (R122). -/
inductive Fault where
  /-- Raised by DEVWR and DEVRD when `START + LEN` is past the device's end: DEV has the offsets 0 to `disk_size - 1`
  only (spec/20_memory.md R39). SAFE: the spec gives such a transfer no effect. -/
  | deviceRange
  deriving DecidableEq, Repr

/-- What the model has no meaning for. -/
inductive Refusal where
  /-- Raised by `exec` for an instruction without a meaning; no arm does so. SAFE. -/
  | notModelled (mnemonic : String)
  deriving DecidableEq, Repr

/-- The unit after its reset number `n`, counting the power-on as number 0 (spec/10_state.md R37): zeros, no byte of
BUF written, and KEY registers that hold free draws (log 2). -/
def Pgu.reset (n : Nat) : Pgu :=
  { err := none, keyw := 0, ovrEn := false, diskSize := 0, sectorSize := 0, ovr := 0, startOffset := 0, index := 0,
    blockSize := 0, blockCount := 0, start := 0, endOff := 0, len := 0, startBlock := 0, badOff := 0,
    key0 := Config.keyDraw n 0, key1 := Config.keyDraw n 1, key2 := Config.keyDraw n 2, key3 := Config.keyDraw n 3,
    buf := [], epoch := n }

/-- A request for a read-only run with no override (log 6). -/
def Request.readScan : Request :=
  { sectorSize := 0, ovr := none, startOffset := 0, wantRandom := false, wantZero := false, key := none,
    acceptOddSize := false }

/-- The host before it has done anything: an empty queue, no device, no run (spec/70_reset_and_hazards.md R137). -/
def HostSide.reset : HostSide :=
  { script := [], replies := [], dev := [], devSize := 0, answers := [], request := Request.readScan, phase := .idle,
    startBlock := 0, blockCount := 0, keysDrawn := 0 }

/-- The machine right after reset. -/
def State.reset : State := { pgu := Pgu.reset 0, host := HostSide.reset }

end Sys2Proof.Machine
end

