-- ==== Sys2Proof/Machine/Flags.lean ====
section
/-! DEFINITION. The status bits. The unit has no condition codes (spec/10_state.md R35): the only ones are those of
STATUS, which this file computes: the code of ERR, KEYW, BUSY and the reserved field (R17, spec/60_exceptions.md R121). -/

namespace Sys2Proof.Machine

/-- The code recorded in STATUS.ERR (R121). -/
def ErrCode.code : ErrCode → Byte
  | .illCmd => 0x01#8
  | .illReg => 0x02#8
  | .range => 0x03#8
  | .bufRange => 0x04#8
  | .diskSize => 0x10#8
  | .blkSize => 0x11#8
  | .bufCap => 0x12#8
  | .startOff => 0x13#8
  | .index => 0x14#8
  | .key => 0x15#8
  | .len => 0x16#8
  | .mismatch => 0x20#8

/-- The field ERR as software reads it: 0 means no fault (R17). -/
def Pgu.errField (p : Pgu) : Byte :=
  match p.err with
  | none => 0#8
  | some e => e.code

/-- STATUS as software reads it: ERR in bits 7:0, KEYW in bits 11:8, BUSY (bit 12) and bits 63:13 zero (R17). -/
def Pgu.statusWord (p : Pgu) : Word := (p.keyw ++ p.errField).zeroExtend 64

/-- The predicate *faulted* (R17). -/
def Pgu.faulted (p : Pgu) : Bool := p.err.isSome

/-- The predicate `KEY_VALID` (R17). -/
def Pgu.keyValid (p : Pgu) : Bool := p.keyw == 0b1111#4

/-- The field ERR of a STATUS value the host has read. -/
def errOfStatus (v : Word) : Byte := v.extractLsb' 0 8

end Sys2Proof.Machine
end

