-- ==== Sys2Proof/Machine/Bytes.lean ====
section
/-! DEFINITION. Byte strings and byte order: `le64`, `le128`, `zeros` of spec/00_scope.md R9, and the reading of a
little-endian string as a number (spec/20_memory.md R45). -/

namespace Sys2Proof

/-- The `n` low bytes of `v`, least significant first. -/
def leBytes : (n : Nat) → (v : Nat) → List Byte
  | 0, _ => []
  | n + 1, v => BitVec.ofNat 8 v :: leBytes n (v / 256)

/-- The number a byte string spells, least significant byte first. -/
def leNat : List Byte → Nat
  | [] => 0
  | b :: rest => b.toNat + 256 * leNat rest

/-- `le64(v)`: the 8 bytes of a register value, least significant first (R9). -/
def le64 (v : Word) : List Byte := leBytes 8 v.toNat

/-- `le128(v)`: the 16 bytes of a 128-bit number, least significant first (R9). -/
def le128 (v : BitVec 128) : List Byte := leBytes 16 v.toNat

/-- `zeros(n)` (R9). -/
def zeros (n : Nat) : List Byte := List.replicate n 0#8

/-- The index of the first non-zero byte, if there is one: the scan of CHECK (spec/41_pattern_engine.md R91). -/
def firstNonZero : List Byte → Option Nat
  | [] => none
  | b :: rest => if b = 0#8 then (firstNonZero rest).map (· + 1) else some 0

end Sys2Proof
end

