-- ==== Sys2Proof/WellFormed.lean ====
section
/-! DEFINITION. What the spec requires of a term before it means anything: a buffer transfer moves at least one
byte, and SETKEY takes 32 key bytes. A transfer of no bytes, ill-formed here, still runs and moves none (log 12). A command has no operand, so nothing about it can be ill-formed. -/

namespace Sys2Proof

/-- A command carries no operand field (spec/30_encoding.md R53), so every `Instr` is well-formed. -/
def Instr.wf : Instr → Bool
  | .choose | .count | .offset | .startblk | .zero | .fill | .invert | .check => true

/-- `MemRead` and `MemWrite` take `n >= 1` (spec/20_memory.md R43, R44, R47); every other primitive takes every
argument its type admits. -/
def HostOp.wf : HostOp → Bool
  | .memWrite _ data => decide (1 ≤ data.length)
  | .memRead _ n => decide (1 ≤ n)
  | .regWrite _ _ | .regRead _ | .devWrite | .devRead | .reset => true

/-- `SETKEY` spells exactly 32 bytes (spec/30_encoding.md R59); the buffer lines as their primitives. -/
def ScriptLine.wf : ScriptLine → Bool
  | .setkey key => decide (key.length = 32)
  | .bufwr _ data => decide (1 ≤ data.length)
  | .bufrd _ n => decide (1 ≤ n)
  | .wr _ _ | .rd _ | .mnemonic _ | .cmdw _ | .devwr | .devrd | .plan | .rangeOf _ | .pattern | .verify => true

end Sys2Proof
end

