-- ==== Sys2Proof/Decode.lean ====
section
/-! DEFINITION. The command decoder, total on every 64-bit word and on every byte string, rejecting by name
(spec/30_encoding.md R52, R55, R56, R62), then the encoder (R54) and the host's table reading. -/

namespace Sys2Proof

/-- Why a command word is not one of the eight (R52, R55): each is E_ILLCMD to the unit. -/
inductive DecodeError where
  /-- bits 63:8 are not all zero. -/
  | zeroField
  /-- bits 63:8 are zero and bits 7:0 are no opcode of R54. -/
  | opcode
  /-- fewer than the eight bytes of a command word were given. -/
  | short
  deriving DecidableEq, Repr

/-- The OPC field, bits 7:0 (R52). -/
def opcField (w : Word) : Byte := w.extractLsb' 0 8

/-- The ZERO field, bits 63:8 (R52). -/
def zeroFieldOf (w : Word) : BitVec 56 := w.extractLsb' 8 56

/-- The opcode map of R54, over bits 7:0. -/
def opcodeMap (opc : Byte) : Option Instr :=
  if opc = 0x01#8 then some .choose
  else if opc = 0x02#8 then some .count
  else if opc = 0x03#8 then some .offset
  else if opc = 0x04#8 then some .startblk
  else if opc = 0x10#8 then some .zero
  else if opc = 0x11#8 then some .fill
  else if opc = 0x12#8 then some .invert
  else if opc = 0x13#8 then some .check
  else none

/-- The decoder: bits 63:8 first, then bits 7:0 (R52, R56). It reads no state (R62). -/
def decodeWord (w : Word) : Except DecodeError Instr :=
  if zeroFieldOf w ≠ 0 then .error .zeroField
  else match opcodeMap (opcField w) with
    | some i => .ok i
    | none => .error .opcode

/-- The word of eight bytes as a bus carries it, least significant byte first (spec/20_memory.md R45 (c), R60). -/
def wordOfBytes (bytes : List Byte) : Word := BitVec.ofNat 64 (leNat bytes)

/-- Decode the first command of a byte string: one length only, 64 bits (R52, R56). -/
def decodeBytes (bytes : List Byte) : Except DecodeError (Instr × List Byte) :=
  if bytes.length < 8 then .error .short
  else match decodeWord (wordOfBytes (bytes.take 8)) with
    | .ok i => .ok (i, bytes.drop 8)
    | .error e => .error e

/-- The opcode of a command (R54). -/
def opcodeOf : Instr → Byte
  | .choose => 0x01#8
  | .count => 0x02#8
  | .offset => 0x03#8
  | .startblk => 0x04#8
  | .zero => 0x10#8
  | .fill => 0x11#8
  | .invert => 0x12#8
  | .check => 0x13#8

/-- The command word of a command: the `match` column of R54. -/
def encode (i : Instr) : Word := (opcodeOf i).zeroExtend 64

/-- The command word as the eight bytes of one little-endian store (R60). -/
def encodeBytes (i : Instr) : List Byte := le64 (encode i)

/-- The host's question of the opcode table: the instruction read from the low `nbits` bits of `w`. The word is laid
out as the eight bytes of a bus store and given to the decoder. -/
def decodeTableWord (nbits w : Nat) : Option Instr :=
  match decodeBytes (le64 (BitVec.ofNat 64 (w % 2 ^ nbits))) with
  | .ok (i, _) => some i
  | .error _ => none

end Sys2Proof
end

