-- ==== Sys2Proof/Machine/Operands.lean ====
section
/-! DEFINITION. The register map of spec/10_state.md R15 (numbers, names, access), what each register reads as, and the
two sub-keys (R31). A command has no operand form: its operands are the registers its rule names
(spec/30_encoding.md R53). -/

namespace Sys2Proof.Machine

/-- The registers by name; the four KEY registers by number; the reserved numbers together (R15). -/
inductive RegName where
  | cmd
  | status
  | ctrl
  | diskSize
  | sectorSize
  | ovr
  | startOffset
  | index
  | blockSize
  | blockCount
  | start
  | endOff
  | len
  | startBlock
  | badOff
  | key0
  | key1
  | key2
  | key3
  | reserved
  deriving DecidableEq, Repr

/-- The map of R15: 0x0F and 0x14 to 0x1F are reserved. -/
def regName (r : RegNum) : RegName :=
  match r.toNat with
  | 0x00 => .cmd
  | 0x01 => .status
  | 0x02 => .ctrl
  | 0x03 => .diskSize
  | 0x04 => .sectorSize
  | 0x05 => .ovr
  | 0x06 => .startOffset
  | 0x07 => .index
  | 0x08 => .blockSize
  | 0x09 => .blockCount
  | 0x0A => .start
  | 0x0B => .endOff
  | 0x0C => .len
  | 0x0D => .startBlock
  | 0x0E => .badOff
  | 0x10 => .key0
  | 0x11 => .key1
  | 0x12 => .key2
  | 0x13 => .key3
  | _ => .reserved

/-- The number of a register (R15); the first reserved number stands for all of them. -/
def RegName.num : RegName → RegNum
  | .cmd => 0x00#5
  | .status => 0x01#5
  | .ctrl => 0x02#5
  | .diskSize => 0x03#5
  | .sectorSize => 0x04#5
  | .ovr => 0x05#5
  | .startOffset => 0x06#5
  | .index => 0x07#5
  | .blockSize => 0x08#5
  | .blockCount => 0x09#5
  | .start => 0x0A#5
  | .endOff => 0x0B#5
  | .len => 0x0C#5
  | .startBlock => 0x0D#5
  | .badOff => 0x0E#5
  | .key0 => 0x10#5
  | .key1 => 0x11#5
  | .key2 => 0x12#5
  | .key3 => 0x13#5
  | .reserved => 0x0F#5

/-- The access column of R15. -/
inductive Access where
  | writeOnly
  | readOnly
  | readWrite
  | none
  deriving DecidableEq, Repr

/-- The access of a register (R15). -/
def RegName.access : RegName → Access
  | .cmd | .key0 | .key1 | .key2 | .key3 => .writeOnly
  | .status | .blockSize | .blockCount | .start | .endOff | .len | .startBlock | .badOff => .readOnly
  | .ctrl | .diskSize | .sectorSize | .ovr | .startOffset | .index => .readWrite
  | .reserved => .none

/-- What a register reads as, without the fault of a reserved number (spec/20_memory.md R40): write-only registers and
reserved fields read 0. -/
def Pgu.regView (p : Pgu) : RegName → Word
  | .cmd => 0
  | .status => p.statusWord
  | .ctrl => if p.ovrEn then 1 else 0
  | .diskSize => p.diskSize
  | .sectorSize => p.sectorSize.zeroExtend 64
  | .ovr => p.ovr
  | .startOffset => p.startOffset
  | .index => p.index
  | .blockSize => p.blockSize
  | .blockCount => p.blockCount
  | .start => p.start
  | .endOff => p.endOff
  | .len => p.len
  | .startBlock => p.startBlock
  | .badOff => p.badOff
  | .key0 | .key1 | .key2 | .key3 => 0
  | .reserved => 0

/-- The 32 key bytes: `KEY = le64(KEY0) || le64(KEY1) || le64(KEY2) || le64(KEY3)` (R31). -/
def Pgu.keyBytes (p : Pgu) : List Byte := le64 p.key0 ++ le64 p.key1 ++ le64 p.key2 ++ le64 p.key3

/-- The first sub-key, `K1 = KEY[0..16)` (R31). -/
def Pgu.subKey1 (p : Pgu) : List Byte := p.keyBytes.take 16

/-- The second sub-key, `K2 = KEY[16..32)` (R31). -/
def Pgu.subKey2 (p : Pgu) : List Byte := p.keyBytes.drop 16

/-- The tweak: `TWEAK = le128(TWEAK_SEED)`, whatever any register holds (spec/41_pattern_engine.md R84). -/
def tweakBytes (cfg : Config) : List Byte := le128 cfg.tweakSeed

end Sys2Proof.Machine
end

