-- ==== Sys2Proof/Machine/Script.lean ====
section
/-! DEFINITION. Scripts: what a script line stands for (spec/30_encoding.md R58, R59) and the (register number, value)
pair a line encodes as (R60). -/

namespace Sys2Proof.Machine

/-- `WR NAME, v` (R58). -/
def wrLine (r : RegName) (v : Word) : HostOp := .regWrite r.num v

/-- `RD NAME` (R58). -/
def rdLine (r : RegName) : HostOp := .regRead r.num

/-- A mnemonic line: `Cmd` of the command's word (R58). -/
def cmdLine (i : Instr) : HostOp := .regWrite RegName.cmd.num (encode i)

/-- Bytes `8n` to `8n+7` of a key as the value of KEY`n`: `le64(vn) = k[8n .. 8n+8)` (R59). -/
def keyWord (key : List Byte) (n : Nat) : Word := wordOfBytes ((key.drop (8 * n)).take 8)

/-- `SETKEY` (R59). -/
def setKeyLines (key : List Byte) : List HostOp :=
  [wrLine .key0 (keyWord key 0), wrLine .key1 (keyWord key 1), wrLine .key2 (keyWord key 2), wrLine .key3 (keyWord key 3)]

/-- `RANGE i` (R59). -/
def rangeLines (i : Word) : List HostOp := [wrLine .index i, cmdLine .offset]

/-- The primitives a script line stands for (R58, R59). -/
def ScriptLine.expand : ScriptLine → List HostOp
  | .wr r v => [.regWrite r v]
  | .rd r => [.regRead r]
  | .mnemonic i => [cmdLine i]
  | .cmdw w => [.regWrite RegName.cmd.num w]
  | .bufwr a data => [.memWrite a data]
  | .bufrd a n => [.memRead a n]
  | .devwr => [.devWrite]
  | .devrd => [.devRead]
  | .setkey key => setKeyLines key
  | .plan => [cmdLine .choose, cmdLine .count]
  | .rangeOf i => rangeLines i
  | .pattern => [cmdLine .zero, cmdLine .fill]
  | .verify => [cmdLine .invert, cmdLine .check]

/-- A script as the primitives it stands for, top to bottom (R58). -/
def expandScript (lines : List ScriptLine) : List HostOp := (lines.map ScriptLine.expand).flatten

/-- A register write as the pair (register number, 64-bit value) of R60; the other lines have none, and
encode as bus accesses only (`busAccess`). -/
def HostOp.pair : HostOp → Option (RegNum × Word)
  | .regWrite r v => some (r, v)
  | .regRead _ | .memWrite _ _ | .memRead _ _ | .devWrite | .devRead | .reset => none

end Sys2Proof.Machine
end

