-- ==== Sys2Proof/Machine/PassDriver.lean ====
section
/-! DEFINITION. The pass driver: the host's own program (spec/50_host_pass_driver.md R101 to R113). When its queue is
empty it decides what to issue next from what it has read; it never touches the unit itself. -/

namespace Sys2Proof.Machine

/-- The three modes of a run (R101). -/
inductive Mode where
  | random
  | zero
  | readOnly
  deriving DecidableEq, Repr

/-- The mode a request asks for; none if it asks for both write modes, a configuration error (R101). -/
def Request.mode (r : Request) : Option Mode :=
  if r.wantRandom && r.wantZero then none
  else if r.wantRandom then some .random
  else if r.wantZero then some .zero
  else some .readOnly

/-- The value of a hexadecimal digit of either case (log 6). -/
def hexDigit (c : Char) : Option Nat :=
  if 48 ≤ c.toNat ∧ c.toNat ≤ 57 then some (c.toNat - 48)
  else if 97 ≤ c.toNat ∧ c.toNat ≤ 102 then some (c.toNat - 87)
  else if 65 ≤ c.toNat ∧ c.toNat ≤ 70 then some (c.toNat - 55)
  else none

/-- The bytes that hexadecimal digits spell, two a byte, the high one first; none for any other text (R113). -/
def hexBytes : List Char → Option (List Byte)
  | [] => some []
  | hi :: lo :: rest =>
    match hexDigit hi, hexDigit lo, hexBytes rest with
    | some h, some l, some bytes => some (BitVec.ofNat 8 (16 * h + l) :: bytes)
    | _, _, _ => none
  | [_] => none

/-- The host's reading of a typed key: dashes stripped, hexadecimal, exactly 32 bytes (R113). The
spec leaves the rest of the format open (spec/91_not_in_source.md N7): that a dash may stand anywhere, between the two
digits of a byte too, and that a `0x` prefix and every other separator are rejected is the model's choice (log 6). -/
def decodeKey (text : List Char) : Option (List Byte) :=
  match hexBytes (text.filter fun c => decide (c ≠ '-')) with
  | some bytes => if bytes.length = 32 then some bytes else none
  | none => none

/-- A user's key that does not decode to 32 bytes (R113). -/
def Request.badKey (r : Request) : Bool :=
  match r.key with
  | some text => (decodeKey text).isNone
  | none => false

/-- Random mode on a device whose size is not a multiple of 16, unless the host accepts the fault at its last block
(R118, spec/70_reset_and_hazards.md R143). -/
def Request.oddSize (r : Request) (size : Word) : Bool :=
  r.wantRandom && !r.acceptOddSize && decide (size.toNat % 16 ≠ 0)

/-- The configuration errors the host finds before it issues anything (R101, R113, R118). -/
def Request.rejected (r : Request) (size : Word) : Bool := r.mode.isNone || r.badKey || r.oddSize size

/-- The key of a run in random mode: the user's, or 32 drawn bytes (R113, log 6). A key that does not decode has ended
the run before (`Request.badKey`). -/
def HostSide.runKey (h : HostSide) : List Byte :=
  match h.request.key with
  | some text => (decodeKey text).getD []
  | none => (List.range 32).map fun j => Config.randomKeyByte h.keysDrawn j

/-- Step 3 of R103: the explicit block size, if the user gave one. -/
def overrideLines : Option Word → List HostOp
  | some v => [wrLine .ovr v, wrLine .ctrl 1]
  | none => []

/-- The configuration sequence, steps 1 to 8 of R103. -/
def HostSide.configLines (h : HostSide) : List HostOp :=
  [.reset, wrLine .diskSize h.devSize, wrLine .sectorSize (h.request.sectorSize.zeroExtend 64)]
    ++ overrideLines h.request.ovr
    ++ [cmdLine .choose, wrLine .startOffset h.request.startOffset, cmdLine .startblk, cmdLine .count]
    ++ (if h.request.mode = some .random then setKeyLines h.runKey else [])
    ++ [rdLine .status]

/-- One block of the write pass (R107). -/
def writeBlock (m : Option Mode) (i : Nat) : List HostOp :=
  rangeLines (BitVec.ofNat 64 i) ++ [cmdLine .zero] ++ (if m = some .random then [cmdLine .fill] else []) ++ [.devWrite]

/-- One block of the verify pass (R108), without INVERT outside random mode and without CHECK in read-only mode
(R109). -/
def verifyBlock (m : Option Mode) (i : Nat) : List HostOp :=
  rangeLines (BitVec.ofNat 64 i) ++ [.devRead] ++ (if m = some .random then [cmdLine .invert] else [])
    ++ (if m = some .readOnly then [] else [cmdLine .check]) ++ [rdLine .status]

/-- Issue lines, and where to go on when they are done. -/
def HostSide.issue (h : HostSide) (ops : List HostOp) (next : Phase) : HostSide := { h with script := ops, phase := next }

/-- The run is over (R110). -/
def HostSide.finish (h : HostSide) (e : RunEnd) : HostSide := { h with phase := .ended e }

/-- The value the host read last. -/
def HostSide.lastValue (h : HostSide) : Option Word :=
  match h.replies with
  | .value v :: _ => some v
  | _ => none

/-- Begin the configuration (R103), or end in a configuration error before any device I/O (R101). -/
def HostSide.beginRun (h : HostSide) : HostSide :=
  if h.request.rejected h.devSize then h.finish .configError
  else { h.issue h.configLines .configured with
    keysDrawn := if h.request.mode = some .random ∧ h.request.key = none then h.keysDrawn + 1 else h.keysDrawn }

/-- Step 8 of R103: stop with a configuration error if ERR is not 0, else read the loop bounds (R106). -/
def HostSide.judgeConfig (h : HostSide) : HostSide :=
  match h.lastValue with
  | some st => if errOfStatus st = 0 then h.issue [rdLine .startBlock, rdLine .blockCount] .planned else h.finish .configError
  | none => h.finish .contractError

/-- The loop bounds are read: the write pass if one is requested, else the verify pass (R105, R106). -/
def HostSide.beginPasses (h : HostSide) : HostSide :=
  match h.replies with
  | .value n :: .value b :: _ =>
    { h with
      startBlock := b
      blockCount := n
      phase := if h.request.mode = some .readOnly then .verifying b.toNat else .writing b.toNat }
  | _ => h.finish .contractError

/-- The write pass at block `i` (R106, R107); after the last block the verify pass begins (R105). -/
def HostSide.writePass (h : HostSide) (i : Nat) : HostSide :=
  if i < h.blockCount.toNat then h.issue (writeBlock h.request.mode i) (.writing (i + 1))
  else { h with phase := .verifying h.startBlock.toNat }

/-- The verify pass at block `i` (R106, R108); after the last block the run has succeeded (R110 e). -/
def HostSide.verifyPass (h : HostSide) (i : Nat) : HostSide :=
  if i < h.blockCount.toNat then h.issue (verifyBlock h.request.mode i) (.judging i) else h.finish .success

/-- The faults that are configuration errors (spec/60_exceptions.md R127), E_BLKSIZE apart, which is one from CHOOSE
only. -/
def isConfigCode (code : Byte) : Bool :=
  [ErrCode.range, .diskSize, .bufCap, .startOff, .key].any fun e => e.code == code

/-- How a run ends on a fault other than E_MISMATCH that shows in a pass, which issues no CHOOSE: a configuration error
or a programming-contract failure (spec/60_exceptions.md R127). -/
def passFault (code : Byte) : RunEnd := if isConfigCode code then .configError else .contractError

/-- STATUS after block `i`: go on, report a mismatch, or end with any other fault (R108, R110, R127). -/
def HostSide.judgeBlock (h : HostSide) (i : Nat) : HostSide :=
  match h.lastValue with
  | some st =>
    if errOfStatus st = 0 then { h with phase := .verifying (i + 1) }
    else if errOfStatus st = ErrCode.mismatch.code then h.issue [rdLine .badOff] .reporting
    else h.finish (passFault (errOfStatus st))
  | none => h.finish .contractError

/-- BADOFF is read: the run ends with the exact offset (R110 c). -/
def HostSide.report (h : HostSide) : HostSide :=
  match h.lastValue with
  | some v => h.finish (.mismatch v)
  | none => h.finish .contractError

/-- What the host does when its queue is empty. With no run it waits (spec/70_reset_and_hazards.md R137). -/
def HostSide.nextMove (h : HostSide) : HostSide :=
  match h.phase with
  | .idle => h
  | .starting => h.beginRun
  | .configured => h.judgeConfig
  | .planned => h.beginPasses
  | .writing i => h.writePass i
  | .verifying i => h.verifyPass i
  | .judging i => h.judgeBlock i
  | .reporting => h.report
  | .ended _ => h

/-- The exit status of an ended run (R110). -/
def RunEnd.exitStatus (cfg : Config) : RunEnd → Nat
  | .success => 0
  | .configError => cfg.exitConfig
  | .ioError => 1
  | .mismatch _ => 2
  | .contractError => cfg.exitConfig

/-- The kind of run a success line names (R110 e). -/
def Mode.summary : Mode → String
  | .random => "read/write test"
  | .zero => "cleaning disk"
  | .readOnly => "read test"

end Sys2Proof.Machine
end

