-- ==== Sys2Proof/Machine/Memory.lean ====
section
/-! DEFINITION. The two operations over byte storage, for BUF (spec/20_memory.md R43, R44) and DEV
(spec/50_host_pass_driver.md R104), and the canonical form. -/

namespace Sys2Proof.Machine

/-- The byte listed at address `a`, if one is. -/
def Mem.get : Mem → Nat → Option Byte
  | [], _ => none
  | (k, b) :: rest, a => if k = a then some b else Mem.get rest a

/-- The cells of a byte string laid down from address `a` on. -/
def Mem.cells : Nat → List Byte → Mem
  | _, [] => []
  | a, b :: rest => (a, b) :: Mem.cells (a + 1) rest

/-- Write `data` at `a` and after: bytes the write does not cover keep their values (R44). -/
def Mem.write (m : Mem) (a : Nat) (data : List Byte) : Mem :=
  m.filter (fun c => decide (c.1 < a)) ++ Mem.cells a data ++ m.filter (fun c => decide (a + data.length ≤ c.1))

/-- Every address of `m` is at least `lo` and each is above the one before it. -/
def Mem.risingFrom : Nat → Mem → Bool
  | _, [] => true
  | lo, (k, _) :: rest => decide (lo ≤ k) && Mem.risingFrom (k + 1) rest

/-- The canonical form: addresses strictly rising. An unlisted address has no value of its own, so no entry can equal
what it reads as (log 1). -/
def Mem.wf (m : Mem) : Bool := Mem.risingFrom 0 m

/-- Every listed address is below `n`. -/
def Mem.within (m : Mem) (n : Nat) : Bool := m.all fun c => decide (c.1 < n)

end Sys2Proof.Machine
end

