-- ==== Sys2Proof/Machine/Ops.lean ====
section
/-! DEFINITION. The operations every meaning is written in: taking a fault (spec/60_exceptions.md R122), the rule that
a command issued while faulted does nothing (R123), the return from a fault, which is reset only (R125), register
writes, and reading and writing BUF. -/

namespace Sys2Proof.Machine

/-- Raise E_X: record the code and change nothing else. The first fault wins: a faulted unit records nothing
(R122, R123, R124). -/
def Pgu.raise (p : Pgu) (e : ErrCode) : Pgu :=
  if p.faulted then p else { p with err := some e }

/-- Raise E_MISMATCH at a device offset: the code and BADOFF in the same step (R122, spec/10_state.md R30). -/
def Pgu.raiseMismatch (p : Pgu) (off : Nat) : Pgu :=
  if p.faulted then p else { p with err := some .mismatch, badOff := BitVec.ofNat 64 off }

/-- The only way back to the not-faulted state: reset, which discards all other state and draws BUF and the KEY
registers afresh (R125, spec/70_reset_and_hazards.md R136, R138). -/
def Pgu.resetAgain (p : Pgu) : Pgu := Pgu.reset (p.epoch + 1)

/-- BLOCK_SIZE as CHOOSE writes it (spec/40_block_range.md R64). -/
def Pgu.setBlockSize (p : Pgu) (v : Nat) : Pgu := { p with blockSize := BitVec.ofNat 64 v }

/-- BLOCK_COUNT as COUNT writes it (R65). -/
def Pgu.setBlockCount (p : Pgu) (v : Nat) : Pgu := { p with blockCount := BitVec.ofNat 64 v }

/-- START, END and LEN as OFFSET writes them, from the first and the last offset of the range (R66). -/
def Pgu.setRange (p : Pgu) (first last : Nat) : Pgu :=
  { p with start := BitVec.ofNat 64 first, endOff := BitVec.ofNat 64 last, len := BitVec.ofNat 64 (last - first + 1) }

/-- START_BLOCK as STARTBLK writes it (R67). -/
def Pgu.setStartBlock (p : Pgu) (v : Nat) : Pgu := { p with startBlock := BitVec.ofNat 64 v }

/-- KEY0 and its KEYW bit (spec/10_state.md R31). -/
def Pgu.setKey0 (p : Pgu) (v : Word) : Pgu := { p with key0 := v, keyw := p.keyw ||| 0b0001#4 }

/-- KEY1 and its KEYW bit (R31). -/
def Pgu.setKey1 (p : Pgu) (v : Word) : Pgu := { p with key1 := v, keyw := p.keyw ||| 0b0010#4 }

/-- KEY2 and its KEYW bit (R31). -/
def Pgu.setKey2 (p : Pgu) (v : Word) : Pgu := { p with key2 := v, keyw := p.keyw ||| 0b0100#4 }

/-- KEY3 and its KEYW bit (R31). -/
def Pgu.setKey3 (p : Pgu) (v : Word) : Pgu := { p with key3 := v, keyw := p.keyw ||| 0b1000#4 }

/-- The byte of BUF at index `i`: what was last written there, else the free draw of the present reset
(spec/10_state.md R33, R37). -/
def Pgu.bufByte (p : Pgu) (i : Nat) : Byte :=
  match Mem.get p.buf i with
  | some b => b
  | none => Config.bufDraw p.epoch i

/-- `BUF[a .. a+n)`, in index order (spec/00_scope.md R10). -/
def Pgu.bufRead (p : Pgu) (a n : Nat) : List Byte := (List.range n).map fun i => p.bufByte (a + i)

/-- `BUF[a .. a+n) <- data` (R10). -/
def Pgu.bufWrite (p : Pgu) (a : Nat) (data : List Byte) : Pgu := { p with buf := Mem.write p.buf a data }

/-- Store a written value in a register the host may write, CMD apart (spec/20_memory.md R41); the other registers
take no value. -/
def Pgu.storeReg (p : Pgu) (r : RegName) (v : Word) : Pgu :=
  match r with
  | .ctrl => { p with ovrEn := v.getLsbD 0 }
  | .sectorSize => if 2 ^ 32 ≤ v.toNat then p.raise .range else { p with sectorSize := v.setWidth 32 }
  | .diskSize => { p with diskSize := v }
  | .ovr => { p with ovr := v }
  | .startOffset => { p with startOffset := v }
  | .index => { p with index := v }
  | .key0 => p.setKey0 v
  | .key1 => p.setKey1 v
  | .key2 => p.setKey2 v
  | .key3 => p.setKey3 v
  | .cmd | .status | .blockSize | .blockCount | .start | .endOff | .len | .startBlock | .badOff | .reserved => p

/-- `RegWrite` to any register but CMD (R41): ignored while faulted, E_ILLREG on a reserved or read-only register. -/
def Pgu.writeReg (p : Pgu) (r : RegName) (v : Word) : Pgu :=
  if p.faulted then p
  else match r.access with
    | .none | .readOnly => p.raise .illReg
    | .writeOnly | .readWrite => p.storeReg r v

/-- `RegRead`: the unit after the read and the value returned (R40). A read of a reserved register raises E_ILLREG and
returns 0; no other read changes anything. -/
def Pgu.readReg (p : Pgu) (r : RegName) : Pgu × Word :=
  match r.access with
  | .none => (p.raise .illReg, 0)
  | .writeOnly => (p, 0)
  | .readOnly | .readWrite => (p, p.regView r)

/-- Whether a buffer transfer of `n` bytes at `a` is out of range: `addr + n > BUF_CAP` (R43, R44). For no bytes, which
the spec leaves open, one that starts within the buffer is in range and for one above its end a free value decides
(log 12). -/
def outOfRange (cfg : Config) (a n : Nat) : Bool :=
  decide (cfg.bufCap < a + n) && (decide (n ≠ 0) || Config.emptyPastEnd a)

/-- `MemRead(a, n)`: the unit after the read and the bytes returned (R43). -/
def Pgu.memRead (cfg : Config) (p : Pgu) (a n : Nat) : Pgu × List Byte :=
  if outOfRange cfg a n then (p.raise .bufRange, zeros n) else (p, p.bufRead a n)

/-- `MemWrite(a, n, data)` (R44). -/
def Pgu.memWrite (cfg : Config) (p : Pgu) (a : Nat) (data : List Byte) : Pgu :=
  if p.faulted then p
  else if outOfRange cfg a data.length then p.raise .bufRange
  else p.bufWrite a data

/-- The unit part of the state, through `f`. -/
def State.mapPgu (s : State) (f : Pgu → Pgu) : State := { s with pgu := f s.pgu }

/-- The host part of the state, through `f`. -/
def State.mapHost (s : State) (f : HostSide → HostSide) : State := { s with host := f s.host }

/-- Run a command's effect, unless the unit is faulted: then it is ignored (spec/30_encoding.md R52, R123). A command
always completes (R129). -/
def runCommand (f : Pgu → Pgu) (s : State) : Host.Outcome State Fault Refusal :=
  .next (s.mapPgu fun p => if p.faulted then p else f p)

end Sys2Proof.Machine
end

