-- ==== Sys2Proof/Machine/Partition.lean ====
section
/-! DEFINITION. The three pure functions of the block-range calculator over the natural numbers
(spec/40_block_range.md R63, R65, R66, spec/00_scope.md R8). -/

namespace Sys2Proof.Machine

/-- The effective sector size: `DEFAULT_SECTOR` stands for 0 (R63). -/
def sectorEff (s : Nat) : Nat := if s = 0 then Config.defaultSector else s

/-- The unclamped block size: a thousandth of the device, rounded down to a sector (R63). -/
def rawBlockSize (d s : Nat) : Nat := d / Config.parts / sectorEff s * sectorEff s

/-- `choose_fn`: the override verbatim, else the raw size clamped into [1 MiB, 128 MiB] (R63). -/
def chooseFn (d s : Nat) : Option Nat → Nat
  | some ovr => ovr
  | none => min (max (rawBlockSize d s) Config.minBlockSize) Config.maxBlockSize

/-- `count_fn`: ceiling division (R65). -/
def countFn (d b : Nat) : Nat := d / b + if d % b ≠ 0 then 1 else 0

/-- `offset_fn`: the inclusive byte range of block `i`, none where the spec's function fails (R66). -/
def offsetFn (d b i : Nat) : Option (Nat × Nat) :=
  if d ≤ i * b then none else some (i * b, min (i * b + b - 1) (d - 1))

end Sys2Proof.Machine
end

