-- ==== Sys2Proof/Machine/Aes.lean ====
section
/-! DEFINITION. AES-128 (spec/42_xts_aes128.md R151 to R161, general knowledge by the spec's own mark): the block cipher
under the default `TBC`. The 16-byte state is a 4 by 4 matrix in column-major order (R151). -/

namespace Sys2Proof.Machine

/-- `xtime`: multiplication by 2 in GF(2^8) (R152). -/
def xtime (a : Byte) : Byte := if a.toNat < 128 then a <<< 1 else (a <<< 1) ^^^ 0x1b#8

/-- `xtime` applied `i` times. -/
def xtimes : Nat → Byte → Byte
  | 0, a => a
  | i + 1, a => xtime (xtimes i a)

/-- The product `a . b`: the exclusive-or over the set bits `i` of `b` of `xtime` applied `i` times to `a` (R152). -/
def gmul (a b : Byte) : Byte :=
  (List.range 8).foldl (fun acc i => if b.getLsbD i then acc ^^^ xtimes i a else acc) 0#8

/-- Row `r` of the table `SBOX` (R154), its 16 entries from left to right. -/
def sboxRow : Nat → Nat
  | 0 => 0x637c777bf26b6fc53001672bfed7ab76
  | 1 => 0xca82c97dfa5947f0add4a2af9ca472c0
  | 2 => 0xb7fd9326363ff7cc34a5e5f171d83115
  | 3 => 0x04c723c31896059a071280e2eb27b275
  | 4 => 0x09832c1a1b6e5aa0523bd6b329e32f84
  | 5 => 0x53d100ed20fcb15b6acbbe394a4c58cf
  | 6 => 0xd0efaafb434d338545f9027f503c9fa8
  | 7 => 0x51a3408f929d38f5bcb6da2110fff3d2
  | 8 => 0xcd0c13ec5f974417c4a77e3d645d1973
  | 9 => 0x60814fdc222a908846eeb814de5e0bdb
  | 10 => 0xe0323a0a4906245cc2d3ac629195e479
  | 11 => 0xe7c8376d8dd54ea96c56f4ea657aae08
  | 12 => 0xba78252e1ca6b4c6e8dd741f4bbd8b8a
  | 13 => 0x703eb5664803f60e613557b986c11d9e
  | 14 => 0xe1f8981169d98e949b1e87e9ce5528df
  | _ => 0x8ca1890dbfe6426841992d0fb054bb16

/-- Row `r` of the table `INV_SBOX` (R155), its 16 entries from left to right. -/
def invSboxRow : Nat → Nat
  | 0 => 0x52096ad53036a538bf40a39e81f3d7fb
  | 1 => 0x7ce339829b2fff87348e4344c4dee9cb
  | 2 => 0x547b9432a6c2233dee4c950b42fac34e
  | 3 => 0x082ea16628d924b2765ba2496d8bd125
  | 4 => 0x72f8f66486689816d4a45ccc5d65b692
  | 5 => 0x6c704850fdedb9da5e154657a78d9d84
  | 6 => 0x90d8ab008cbcd30af7e45805b8b34506
  | 7 => 0xd02c1e8fca3f0f02c1afbd0301138a6b
  | 8 => 0x3a9111414f67dcea97f2cfcef0b4e673
  | 9 => 0x96ac7422e7ad3585e2f937e81c75df6e
  | 10 => 0x47f11a711d29c5896fb7620eaa18be1b
  | 11 => 0xfc563e4bc6d279209adbc0fe78cd5af4
  | 12 => 0x1fdda8338807c731b11210592780ec5f
  | 13 => 0x60517fa919b54a0d2de57a9f93c99cef
  | 14 => 0xa0e03b4dae2af5b0c8ebbb3c83539961
  | _ => 0x172b047eba77d626e169146355210c7d

/-- Entry `c` of a row of 16 entries: column 0 is the leftmost. -/
def rowEntry (row c : Nat) : Byte := BitVec.ofNat 8 (row >>> (8 * (15 - c)))

/-- `SBOX[a]`: the row is the high hexadecimal digit of `a`, the column the low one (R154). -/
def sbox (a : Byte) : Byte := rowEntry (sboxRow (a.toNat / 16)) (a.toNat % 16)

/-- `INV_SBOX[a]` (R155). -/
def invSbox (a : Byte) : Byte := rowEntry (invSboxRow (a.toNat / 16)) (a.toNat % 16)

/-- Four bytes: a column of the state, or a word of the key schedule (R151, R159). -/
structure Column where
  r0 : Byte
  r1 : Byte
  r2 : Byte
  r3 : Byte
  deriving DecidableEq, Repr

/-- Sixteen bytes: the state, a round key or a cipher block. Byte `i` is row `i mod 4` of column `i / 4` (R151). -/
structure Block where
  c0 : Column
  c1 : Column
  c2 : Column
  c3 : Column
  deriving DecidableEq, Repr

/-- Bytewise exclusive-or of two columns. -/
def Column.xor (x y : Column) : Column := ⟨x.r0 ^^^ y.r0, x.r1 ^^^ y.r1, x.r2 ^^^ y.r2, x.r3 ^^^ y.r3⟩

/-- A function applied to each byte of a column. -/
def Column.map (f : Byte → Byte) (x : Column) : Column := ⟨f x.r0, f x.r1, f x.r2, f x.r3⟩

/-- Bytewise exclusive-or of two blocks; `AddRoundKey` (R158). -/
def Block.xor (x y : Block) : Block := ⟨x.c0.xor y.c0, x.c1.xor y.c1, x.c2.xor y.c2, x.c3.xor y.c3⟩

/-- A function applied to each column. -/
def Block.mapColumns (f : Column → Column) (x : Block) : Block := ⟨f x.c0, f x.c1, f x.c2, f x.c3⟩

/-- `SubBytes` (R156). -/
def subBytes (s : Block) : Block := s.mapColumns (Column.map sbox)

/-- `InvSubBytes` (R156). -/
def invSubBytes (s : Block) : Block := s.mapColumns (Column.map invSbox)

/-- `ShiftRows`: row `r` rotates left by `r` columns (R156). -/
def shiftRows (s : Block) : Block :=
  ⟨⟨s.c0.r0, s.c1.r1, s.c2.r2, s.c3.r3⟩, ⟨s.c1.r0, s.c2.r1, s.c3.r2, s.c0.r3⟩,
   ⟨s.c2.r0, s.c3.r1, s.c0.r2, s.c1.r3⟩, ⟨s.c3.r0, s.c0.r1, s.c1.r2, s.c2.r3⟩⟩

/-- `InvShiftRows`: row `r` rotates right by `r` columns (R156). -/
def invShiftRows (s : Block) : Block :=
  ⟨⟨s.c0.r0, s.c3.r1, s.c2.r2, s.c1.r3⟩, ⟨s.c1.r0, s.c0.r1, s.c3.r2, s.c2.r3⟩,
   ⟨s.c2.r0, s.c1.r1, s.c0.r2, s.c3.r3⟩, ⟨s.c3.r0, s.c2.r1, s.c1.r2, s.c0.r3⟩⟩

/-- A row of coefficients times a column, in GF(2^8) (R157). -/
def Column.dot (k0 k1 k2 k3 : Byte) (x : Column) : Byte :=
  gmul x.r0 k0 ^^^ gmul x.r1 k1 ^^^ gmul x.r2 k2 ^^^ gmul x.r3 k3

/-- `MixColumns` on one column (R157). -/
def mixColumn (x : Column) : Column :=
  ⟨x.dot 2 3 1 1, x.dot 1 2 3 1, x.dot 1 1 2 3, x.dot 3 1 1 2⟩

/-- `InvMixColumns` on one column (R157). -/
def invMixColumn (x : Column) : Column :=
  ⟨x.dot 14 11 13 9, x.dot 9 14 11 13, x.dot 13 9 14 11, x.dot 11 13 9 14⟩

/-- `MixColumns` (R157). -/
def mixColumns (s : Block) : Block := s.mapColumns mixColumn

/-- `InvMixColumns` (R157). -/
def invMixColumns (s : Block) : Block := s.mapColumns invMixColumn

/-- `RCON[1..10]` (R159). -/
def rcon : List Byte := [0x01, 0x02, 0x04, 0x08, 0x10, 0x20, 0x40, 0x80, 0x1b, 0x36]

/-- `RotWord`, then `SubWord`, then the round constant into byte 0 (R159). -/
def scheduleCore (t : Column) (rc : Byte) : Column :=
  ⟨sbox t.r1 ^^^ rc, sbox t.r2, sbox t.r3, sbox t.r0⟩

/-- The next round key: `w[i] = w[i-4] xor t`, four words at a time (R159). -/
def nextRoundKey (k : Block) (rc : Byte) : Block :=
  let w0 := k.c0.xor (scheduleCore k.c3 rc)
  let w1 := k.c1.xor w0
  let w2 := k.c2.xor w1
  let w3 := k.c3.xor w2
  ⟨w0, w1, w2, w3⟩

/-- The round keys after `k`, one per round constant (R159). -/
def expandFrom (k : Block) : List Byte → List Block
  | [] => []
  | rc :: rest => nextRoundKey k rc :: expandFrom (nextRoundKey k rc) rest

/-- The round keys 1 to 10 of a key; round key 0 is the key itself (R159). -/
def roundKeys (k : Block) : List Block := expandFrom k rcon

/-- The rounds 1 to 9 and the last round of R160, over the round keys still to use: the last has no `MixColumns`. -/
def encRounds : List Block → Block → Block
  | [], s => s
  | [rk], s => (shiftRows (subBytes s)).xor rk
  | rk :: rest, s => encRounds rest ((mixColumns (shiftRows (subBytes s))).xor rk)

/-- `AES_ENC(k, p)` (R160). -/
def aesEnc (k p : Block) : Block := encRounds (roundKeys k) (p.xor k)

/-- The steps of R161 in reverse order of the round keys: what undoes `encRounds` over the same keys. -/
def decRounds : List Block → Block → Block
  | [], s => s
  | [rk], s => invSubBytes (invShiftRows (s.xor rk))
  | rk :: rest, s => invSubBytes (invShiftRows (invMixColumns ((decRounds rest s).xor rk)))

/-- `AES_DEC(k, c)` (R161): the same round keys, used in reverse. -/
def aesDec (k c : Block) : Block := (decRounds (roundKeys k) c).xor k

end Sys2Proof.Machine
end

