-- ==== Sys2Proof/Machine/Xts.lean ====
section
/-! DEFINITION. The XTS mode over AES-128 (spec/42_xts_aes128.md R162 to R165, general knowledge by the spec's own
mark): the default value of the parameter `TBC` (spec/41_pattern_engine.md R85). -/

namespace Sys2Proof.Machine

/-- Byte `i` of a string, zero past its end. -/
def byteAt (s : List Byte) (i : Nat) : Byte := s.getD i 0#8

/-- The column made of bytes `i` to `i + 3` of a string. -/
def Column.ofBytes (s : List Byte) (i : Nat) : Column :=
  ⟨byteAt s i, byteAt s (i + 1), byteAt s (i + 2), byteAt s (i + 3)⟩

/-- The block made of the first 16 bytes of a string: input byte `i` is state byte `i` (R151). -/
def Block.ofBytes (s : List Byte) : Block :=
  ⟨Column.ofBytes s 0, Column.ofBytes s 4, Column.ofBytes s 8, Column.ofBytes s 12⟩

/-- The four bytes of a column, row 0 first. -/
def Column.toBytes (x : Column) : List Byte := [x.r0, x.r1, x.r2, x.r3]

/-- The 16 bytes of a block: output byte `i` is state byte `i` (R151). -/
def Block.toBytes (x : Block) : List Byte := x.c0.toBytes ++ x.c1.toBytes ++ x.c2.toBytes ++ x.c3.toBytes

/-- `mul_alpha`: with `N` the little-endian number of the block, `2N mod 2^128`, exclusive-or 0x87 if `N >= 2^127`
(R162). -/
def mulAlpha (t : Block) : Block :=
  let n := leNat t.toBytes
  Block.ofBytes (leBytes 16 ((2 * n % 2 ^ 128) ^^^ (if 2 ^ 127 ≤ n then 0x87 else 0)))

/-- `T_0`: the tweak encrypted under the second sub-key, in both directions (R163, R165). -/
def tweakStart (k2 t : List Byte) : Block := aesEnc (Block.ofBytes k2) (Block.ofBytes t)

/-- The cipher blocks of a sector one after another, `f` on each between two exclusive-ors with its mask, the mask
times alpha from one to the next (R164, R165). `m` counts the whole cipher blocks; what is left over (nothing, on the
domain of law T5) becomes free values (log 7). -/
def xtsBlocks (f : Block → Block) : Nat → Block → List Byte → List Byte
  | 0, _, s => s.map Config.cipherTail
  | m + 1, t, s => ((f ((Block.ofBytes s).xor t)).xor t).toBytes ++ xtsBlocks f m (mulAlpha t) (s.drop 16)

/-- `TBC_ENC` (R164): the first sub-key is the data key, the second the tweak key. -/
def xtsEnc (k1 k2 t s : List Byte) : List Byte :=
  xtsBlocks (aesEnc (Block.ofBytes k1)) (s.length / 16) (tweakStart k2 t) s

/-- `TBC_DEC` (R165): the tweak is encrypted here too. -/
def xtsDec (k1 k2 t s : List Byte) : List Byte :=
  xtsBlocks (aesDec (Block.ofBytes k1)) (s.length / 16) (tweakStart k2 t) s

/-- XTS-AES-128 as a value of the parameter `TBC`. -/
def xtsAes128 : Tbc := { enc := xtsEnc, dec := xtsDec }

end Sys2Proof.Machine
end

