-- ==== Sys2Proof/Machine/Standard.lean ====
section
/-! DEFINITION. The default parameters of spec/00_scope.md R6, under which `exec` and `step` run. -/

namespace Sys2Proof

/-- The defaults: `BUF_CAP` 134,217,728, `TBC` XTS-AES-128, `TWEAK_SEED` 0, `EXIT_CONFIG` 1 (R6, log 8). -/
def Config.standard : Config :=
  { bufCap := 134217728, tbc := Machine.xtsAes128, tweakSeed := 0, exitConfig := 1 }

end Sys2Proof
end

