-- ==== Sys2Proof/Machine/Brc.lean ====
section
/-! DEFINITION. The block-range calculator: CHOOSE, COUNT, OFFSET, STARTBLK (spec/40_block_range.md R64 to R67), each a
function of the registers its rule names (R68), its checks in the order of spec/60_exceptions.md R126. -/

namespace Sys2Proof.Machine

/-- The explicit block size, where CTRL says it is set (spec/10_state.md R18, R21). -/
def Pgu.overrideArg (p : Pgu) : Option Nat := if p.ovrEn then some p.ovr.toNat else none

/-- The block size CHOOSE decides on, before its checks (R63, R64). -/
def Pgu.chosenSize (p : Pgu) : Nat := chooseFn p.diskSize.toNat p.sectorSize.toNat p.overrideArg

/-- Checks 2a and 2b of R64: the override must be at least 16 and a multiple of 16, the computed size a multiple. -/
def Pgu.badSize (p : Pgu) (b : Nat) : Bool := if p.ovrEn then decide (b < 16 ∨ b % 16 ≠ 0) else decide (b % 16 ≠ 0)

/-- CHOOSE (R64). -/
def Pgu.choose (cfg : Config) (p : Pgu) : Pgu :=
  if p.diskSize.toNat = 0 then p.raise .diskSize
  else if p.badSize p.chosenSize then p.raise .blkSize
  else if cfg.bufCap < p.chosenSize then p.raise .bufCap
  else p.setBlockSize p.chosenSize

/-- COUNT (R65). -/
def Pgu.count (p : Pgu) : Pgu :=
  if p.diskSize.toNat = 0 then p.raise .diskSize
  else if p.blockSize.toNat = 0 then p.raise .blkSize
  else p.setBlockCount (countFn p.diskSize.toNat p.blockSize.toNat)

/-- OFFSET (R66). -/
def Pgu.offset (p : Pgu) : Pgu :=
  if p.blockSize.toNat = 0 then p.raise .blkSize
  else match offsetFn p.diskSize.toNat p.blockSize.toNat p.index.toNat with
    | none => p.raise .index
    | some (first, last) => p.setRange first last

/-- STARTBLK (R67). -/
def Pgu.startblk (p : Pgu) : Pgu :=
  if p.blockSize.toNat = 0 then p.raise .blkSize
  else if p.diskSize.toNat ≤ p.startOffset.toNat then p.raise .startOff
  else p.setStartBlock (p.startOffset.toNat / p.blockSize.toNat)

/-- CHOOSE as a command, under the default parameters (R64). -/
def execChoose (s : State) : Host.Outcome State Fault Refusal := runCommand (Pgu.choose Config.standard) s

/-- COUNT as a command (R65). -/
def execCount (s : State) : Host.Outcome State Fault Refusal := runCommand Pgu.count s

/-- OFFSET as a command (R66). -/
def execOffset (s : State) : Host.Outcome State Fault Refusal := runCommand Pgu.offset s

/-- STARTBLK as a command (R67). -/
def execStartblk (s : State) : Host.Outcome State Fault Refusal := runCommand Pgu.startblk s

end Sys2Proof.Machine
end

