-- ==== Sys2Proof/Machine/Tpe.lean ====
section
/-! DEFINITION. The pattern engine: ZERO, FILL, INVERT (spec/41_pattern_engine.md R81, R82, R83), over any parameters;
the commands run under the defaults. -/

namespace Sys2Proof.Machine

/-- ZERO (R81). -/
def Pgu.zero (p : Pgu) : Pgu :=
  if p.blockSize.toNat = 0 then p.raise .blkSize
  else p.bufWrite 0 (zeros p.blockSize.toNat)

/-- FILL (R82): `BUF[0..BLOCK_SIZE)` encrypted in place, whatever it holds, as one sector under the fixed tweak. -/
def Pgu.fill (cfg : Config) (p : Pgu) : Pgu :=
  if p.blockSize.toNat = 0 then p.raise .blkSize
  else if !p.keyValid then p.raise .key
  else p.bufWrite 0 (cfg.tbc.enc p.subKey1 p.subKey2 (tweakBytes cfg) (p.bufRead 0 p.blockSize.toNat))

/-- Check 3 of INVERT: LEN is zero, no multiple of 16, or above BLOCK_SIZE (R83). -/
def Pgu.badLen (p : Pgu) : Bool :=
  decide (p.len.toNat = 0 ∨ p.len.toNat % 16 ≠ 0 ∨ p.blockSize.toNat < p.len.toNat)

/-- INVERT (R83): `BUF[0..LEN)` decrypted in place. -/
def Pgu.invert (cfg : Config) (p : Pgu) : Pgu :=
  if p.blockSize.toNat = 0 then p.raise .blkSize
  else if !p.keyValid then p.raise .key
  else if p.badLen then p.raise .len
  else p.bufWrite 0 (cfg.tbc.dec p.subKey1 p.subKey2 (tweakBytes cfg) (p.bufRead 0 p.len.toNat))

/-- ZERO as a command (R81). -/
def execZero (s : State) : Host.Outcome State Fault Refusal := runCommand Pgu.zero s

/-- FILL as a command, under the default parameters (R82). -/
def execFill (s : State) : Host.Outcome State Fault Refusal := runCommand (Pgu.fill Config.standard) s

/-- INVERT as a command, under the default parameters (R83). -/
def execInvert (s : State) : Host.Outcome State Fault Refusal := runCommand (Pgu.invert Config.standard) s

end Sys2Proof.Machine
end

