-- ==== Sys2Proof/Machine/Zck.lean ====
section
/-! DEFINITION. The zero checker: CHECK (spec/41_pattern_engine.md R91). -/

namespace Sys2Proof.Machine

/-- CHECK (R91): E_LEN if no OFFSET has run; else E_MISMATCH with `START + i0` for the least `i0` of a non-zero byte of
`BUF[0..LEN)`; else no effect. -/
def Pgu.check (p : Pgu) : Pgu :=
  if p.len.toNat = 0 then p.raise .len
  else match firstNonZero (p.bufRead 0 p.len.toNat) with
    | some i0 => p.raiseMismatch (p.start.toNat + i0)
    | none => p

/-- CHECK as a command (R91). -/
def execCheck (s : State) : Host.Outcome State Fault Refusal := runCommand Pgu.check s

end Sys2Proof.Machine
end

