-- ==== Sys2Proof/Machine/Commands.lean ====
section
/-! DEFINITION. The commands under any parameters of spec/00_scope.md R6; `exec` is this under the defaults. -/

namespace Sys2Proof.Machine

/-- What each command does to a not-faulted unit (spec/30_encoding.md R54). -/
def commandEffect (cfg : Config) : Instr → Pgu → Pgu
  | .choose => Pgu.choose cfg
  | .count => Pgu.count
  | .offset => Pgu.offset
  | .startblk => Pgu.startblk
  | .zero => Pgu.zero
  | .fill => Pgu.fill cfg
  | .invert => Pgu.invert cfg
  | .check => Pgu.check

/-- A command under the parameters `cfg` (R6). -/
def execUnder (cfg : Config) (i : Instr) (s : State) : Host.Outcome State Fault Refusal :=
  runCommand (commandEffect cfg i) s

end Sys2Proof.Machine
end

