-- ==== Sys2Proof/Machine/Dispatch.lean ====
section
/-! DEFINITION. One arm per command of spec/30_encoding.md R54. -/

namespace Sys2Proof.Machine

def exec (i : Instr) (s : State) : Host.Outcome State Fault Refusal :=
  match i with
  | .choose => Sys2Proof.Machine.execChoose s
  | .count => Sys2Proof.Machine.execCount s
  | .offset => Sys2Proof.Machine.execOffset s
  | .startblk => Sys2Proof.Machine.execStartblk s
  | .zero => Sys2Proof.Machine.execZero s
  | .fill => Sys2Proof.Machine.execFill s
  | .invert => Sys2Proof.Machine.execInvert s
  | .check => Sys2Proof.Machine.execCheck s

end Sys2Proof.Machine
end

