-- ==== Sys2Proof/Machine/Primitives.lean ====
section
/-! DEFINITION. What each line of the host's queue does: the four primitives (spec/20_memory.md R40, R41, R43, R44), the
command write (spec/30_encoding.md R52), the two device transfers (R58) and the reset input
(spec/70_reset_and_hazards.md R136). Each takes the parameters of spec/00_scope.md R6 it depends on: the configuration,
or how a command runs under it. -/

namespace Sys2Proof.Machine

/-- The host receives what a read returned. -/
def HostSide.receive (h : HostSide) (r : Reply) : HostSide := { h with replies := r :: h.replies }

/-- How a command runs: `exec` under the default parameters, `execUnder` under others. -/
abbrev Runner := Instr → State → Host.Outcome State Fault Refusal

/-- `Cmd(w)` (R52): ignored while faulted; E_ILLCMD for a word that is no command (R55); else the command. -/
def cmdWord (run : Runner) (w : Word) (s : State) : Host.Outcome State Fault Refusal :=
  if s.pgu.faulted then .next s
  else match decodeWord w with
    | .ok i => run i s
    | .error _ => .next (s.mapPgu fun p => p.raise .illCmd)

/-- `RegWrite(r, v)` (R41); a write to CMD is `Cmd(v)`. -/
def regWrite (run : Runner) (r : RegNum) (v : Word) (s : State) : Host.Outcome State Fault Refusal :=
  match regName r with
  | .cmd => cmdWord run v s
  | name => .next (s.mapPgu fun p => p.writeReg name v)

/-- `RegRead(r)` (R40). -/
def regRead (r : RegNum) (s : State) : State :=
  { pgu := (s.pgu.readReg (regName r)).1, host := s.host.receive (.value (s.pgu.readReg (regName r)).2) }

/-- `MemRead(a, n)` (R43). -/
def memRead (cfg : Config) (a n : Nat) (s : State) : State :=
  { pgu := (s.pgu.memRead cfg a n).1, host := s.host.receive (.bytes (s.pgu.memRead cfg a n).2) }

/-- `MemWrite(a, n, data)` (R44). -/
def memWrite (cfg : Config) (a : Nat) (data : List Byte) (s : State) : State := s.mapPgu fun p => p.memWrite cfg a data

/-- The device's byte at offset `a` (spec/50_host_pass_driver.md R104). -/
def HostSide.devByte (h : HostSide) (a : Nat) : Byte :=
  match Mem.get h.dev a with
  | some b => b
  | none => Config.devDraw a

/-- `DEV[a .. a+n)`. -/
def HostSide.devBytes (h : HostSide) (a n : Nat) : List Byte := (List.range n).map fun i => h.devByte (a + i)

/-- `DEV[a .. a+n) <- data`. -/
def HostSide.devStore (h : HostSide) (a : Nat) (data : List Byte) : HostSide := { h with dev := Mem.write h.dev a data }

/-- How the device answers the next transfer (R104, log 5). -/
def HostSide.nextAnswer (h : HostSide) : DevAnswer :=
  match h.answers with
  | [] => .faithful
  | a :: _ => a

/-- The answer is used up. -/
def HostSide.dropAnswer (h : HostSide) : HostSide := { h with answers := h.answers.tail }

/-- What a transfer of `asked` moves under an answer: none is an I/O failure, and so is a transfer of another length
than the one asked for (R104, log 5). -/
def DevAnswer.moved (asked : List Byte) : DevAnswer → Option (List Byte)
  | .faithful => some asked
  | .altered data => if data.length = asked.length then some data else none
  | .ioError _ => none

/-- What a device write of `n` bytes that fails leaves from the range's first byte on: nothing, part of the block or
other bytes, as the answer says. The spec leaves it open; that the answer decides it is the model's choice (log 5). -/
def DevAnswer.leftBehind (n : Nat) : DevAnswer → List Byte
  | .faithful => []
  | .altered data => data.take n
  | .ioError stored => stored.take n

/-- An I/O error is fatal: the host stops issuing primitives and the run is over (R104, R110 b). -/
def HostSide.ioFailed (h : HostSide) : HostSide := { h with script := [], phase := .ended .ioError }

/-- A device transfer reaches past the device's end: it moves a byte and `START + LEN` is above the device's length
(spec/20_memory.md R39). One of no bytes reaches nothing. -/
def State.pastDevice (s : State) : Bool :=
  decide (s.pgu.len.toNat ≠ 0 ∧ s.host.devSize.toNat < s.pgu.start.toNat + s.pgu.len.toNat)

/-- DEVWR: `DEV[START .. START+LEN) <- MemRead(0, LEN)` (R58, R104), for LEN = 0 the same with no byte moved (log 12). What the range holds after a write that fails is open
in the spec: the answer says it (log 5). -/
def devWrite (cfg : Config) (s : State) : Host.Outcome State Fault Refusal :=
  if s.pastDevice then .fault .deviceRange
  else
    let got := s.pgu.memRead cfg 0 s.pgu.len.toNat
    match s.host.nextAnswer.moved got.2 with
    | some data => .next { pgu := got.1, host := s.host.dropAnswer.devStore s.pgu.start.toNat data }
    | none => .next
        { pgu := got.1
          host := (s.host.dropAnswer.devStore s.pgu.start.toNat (s.host.nextAnswer.leftBehind got.2.length)).ioFailed }

/-- DEVRD: `MemWrite(0, LEN, DEV[START .. START+LEN))` (R58, R104), for LEN = 0 the same with no byte moved
(log 12). A device read that fails issues no `MemWrite`. -/
def devRead (cfg : Config) (s : State) : Host.Outcome State Fault Refusal :=
  if s.pastDevice then .fault .deviceRange
  else match s.host.nextAnswer.moved (s.host.devBytes s.pgu.start.toNat s.pgu.len.toNat) with
    | some data => .next { pgu := s.pgu.memWrite cfg 0 data, host := s.host.dropAnswer }
    | none => .next { pgu := s.pgu, host := s.host.dropAnswer.ioFailed }

/-- The reset input: one atomic step, in any state (spec/70_reset_and_hazards.md R136). The host and its device are not
reset. -/
def resetUnit (s : State) : State := s.mapPgu Pgu.resetAgain

/-- One line of the queue, under the parameters `cfg` and a way to run commands. -/
def runOpWith (cfg : Config) (run : Runner) (op : HostOp) (s : State) : Host.Outcome State Fault Refusal :=
  match op with
  | .regWrite r v => regWrite run r v s
  | .regRead r => .next (regRead r s)
  | .memWrite a data => .next (memWrite cfg a data s)
  | .memRead a n => .next (memRead cfg a n s)
  | .devWrite => devWrite cfg s
  | .devRead => devRead cfg s
  | .reset => .next (resetUnit s)

/-- One line of the queue under the default parameters. -/
def runOp (op : HostOp) (s : State) : Host.Outcome State Fault Refusal := runOpWith Config.standard exec op s

/-- One line of the queue under the parameters `cfg` (spec/00_scope.md R6). -/
def runOpUnder (cfg : Config) (op : HostOp) (s : State) : Host.Outcome State Fault Refusal :=
  runOpWith cfg (execUnder cfg) op s

end Sys2Proof.Machine
end

