-- ==== Sys2Proof/Machine/Step.lean ====
section
/-! DEFINITION. One step: the host's next primitive, with all its effects (spec/00_scope.md R11); with an empty queue,
what the host decides to do next. -/

namespace Sys2Proof.Machine

/-- The state with the first line taken off the queue. -/
def State.popScript (s : State) (rest : List HostOp) : State := { s with host := { s.host with script := rest } }

/-- One step, given how a line of the queue runs (R11, R58, spec/70_reset_and_hazards.md R137). -/
def stepWith (line : HostOp → State → Host.Outcome State Fault Refusal) (s : State) :
    Host.Outcome State Fault Refusal :=
  match s.host.script with
  | [] => .next (s.mapHost HostSide.nextMove)
  | op :: rest => line op (s.popScript rest)

/-- One step of the machine, under the default parameters. -/
def step (s : State) : Host.Outcome State Fault Refusal := stepWith runOp s

/-- One step of the machine under the parameters `cfg` (R6). -/
def stepUnder (cfg : Config) (s : State) : Host.Outcome State Fault Refusal := stepWith (runOpUnder cfg) s

/-- A command word put where the next step takes its command from: as the data of a write to CMD at the head of the
host's queue (spec/10_state.md R34, spec/30_encoding.md R52, log 4). -/
def State.withFetchWord (s : State) (nbits w : Nat) : State :=
  { s with host := { s.host with script := .regWrite 0 (BitVec.ofNat 64 (w % 2 ^ nbits)) :: s.host.script } }

end Sys2Proof.Machine
end

