-- ==== Sys2Proof/Machine/Bus.lean ====
section
/-! DEFINITION. The bus mapping of spec/20_memory.md R42 and the bus view of a register (R45 c, spec/30_encoding.md R60),
over the open base addresses, and the bus access each script line encodes as (R60). No other rule depends on it and no
step uses it. -/

namespace Sys2Proof.Machine

/-- Register `r` is the 64-bit word at `PGU_BASE + 8*r` (R42). -/
def regBusAddr (m : BusMap) (r : RegNum) : Nat := m.pguBase + 8 * r.toNat

/-- Buffer byte `a` is the byte at `BUF_BASE + a` (R42). -/
def bufBusAddr (m : BusMap) (a : Nat) : Nat := m.bufBase + a

/-- The two windows, 256 bytes and `BUF_CAP` bytes, do not overlap (R42). -/
def windowsApart (cfg : Config) (m : BusMap) : Prop := m.pguBase + 256 ≤ m.bufBase ∨ m.bufBase + cfg.bufCap ≤ m.pguBase

/-- What R42 requires of the bases: register words are naturally aligned, so the register window starts at a multiple of
8, and the windows do not overlap. -/
structure BusMapOk (cfg : Config) (m : BusMap) : Prop where
  aligned : m.pguBase % 8 = 0
  apart : windowsApart cfg m

/-- Byte `k` of the word at a register's address is bits `8k+7:8k` of the register (R45 c). -/
def Pgu.busBytes (p : Pgu) (r : RegName) : List Byte := le64 (p.regView r)

/-- A register write as one little-endian store: the bytes and the address of the first (R60). -/
def busStore (m : BusMap) (r : RegNum) (v : Word) : Nat × List Byte := (regBusAddr m r, le64 v)

/-- What a script line becomes on a bus (R60). -/
inductive BusAccess where
  /-- one 64-bit store of eight bytes, the first at the address. -/
  | store (addr : Nat) (bytes : List Byte)
  /-- one 64-bit load from the address. -/
  | load (addr : Nat)
  /-- a transfer of bytes to the address and after. -/
  | writeBytes (addr : Nat) (data : List Byte)
  /-- a transfer of `n` bytes from the address and after. -/
  | readBytes (addr n : Nat)
  deriving DecidableEq, Repr

/-- The bus access of a script line: a store for WR and mnemonic lines, a load for RD, byte transfers for BUFWR and BUFRD
(R60). The device lines and the reset input have none (R58, spec/70_reset_and_hazards.md R136). -/
def busAccess (m : BusMap) : HostOp → Option BusAccess
  | .regWrite r v => some (.store (busStore m r v).1 (busStore m r v).2)
  | .regRead r => some (.load (regBusAddr m r))
  | .memWrite a data => some (.writeBytes (bufBusAddr m a) data)
  | .memRead a n => some (.readBytes (bufBusAddr m a) n)
  | .devWrite | .devRead | .reset => none

/-- The bytes a 64-bit load of register `r` puts on the bus (R45 c, R60). -/
def busLoadBytes (p : Pgu) (r : RegNum) : List Byte := p.busBytes (regName r)

end Sys2Proof.Machine
end

