-- ==== Sys2Proof/Safety.lean ====
section
/-! DEFINITION. What counts as a good state and a good run: the invariants of spec/10_state.md R38 over the parameters,
the canonical form of the two byte stores, and a run that has not faulted (spec/60_exceptions.md R124). -/

namespace Sys2Proof.Machine

/-- R38 (a): BLOCK_SIZE is 0 or a valid block size. -/
def Pgu.blockSizeOk (cfg : Config) (p : Pgu) : Prop :=
  p.blockSize.toNat = 0 ∨
    (p.blockSize.toNat % 16 = 0 ∧ 16 ≤ p.blockSize.toNat ∧ p.blockSize.toNat ≤ cfg.bufCap)

/-- R38 (b): no range yet, or START, END and LEN are one range that fits the buffer. -/
def Pgu.rangeOk (cfg : Config) (p : Pgu) : Prop :=
  (p.len.toNat = 0 ∧ p.start.toNat = 0 ∧ p.endOff.toNat = 0) ∨
    (p.start.toNat ≤ p.endOff.toNat ∧ p.len.toNat = p.endOff.toNat - p.start.toNat + 1 ∧
      1 ≤ p.len.toNat ∧ p.len.toNat ≤ cfg.bufCap)

/-- R38 (d): BADOFF is non-zero only beside E_MISMATCH. -/
def Pgu.badOffOk (p : Pgu) : Prop := p.badOff ≠ 0 → p.err = some .mismatch

/-- BUF is in canonical form and lists no index at or above `BUF_CAP` (spec/10_state.md R33). -/
def Pgu.bufOk (cfg : Config) (p : Pgu) : Prop := Mem.wf p.buf = true ∧ Mem.within p.buf cfg.bufCap = true

/-- R38 (a), (b), (d) and the buffer's form. R38 (c) and (f) hold of every state by the widths of the fields and the
computed STATUS; R38 (e) is about steps. -/
structure Pgu.Inv (cfg : Config) (p : Pgu) : Prop where
  blockSize : p.blockSizeOk cfg
  range : p.rangeOk cfg
  badOff : p.badOffOk
  buf : p.bufOk cfg

/-- The invariant of the whole machine under the parameters `cfg`: the unit's, and the device in canonical form with no
offset at or above its length (spec/20_memory.md R39). -/
structure State.InvUnder (cfg : Config) (s : State) : Prop where
  pgu : s.pgu.Inv cfg
  devWf : Mem.wf s.host.dev = true
  devWithin : Mem.within s.host.dev s.host.devSize.toNat = true

/-- The invariant under the default parameters. -/
abbrev State.Inv (s : State) : Prop := s.InvUnder Config.standard

/-- Nothing has faulted since reset: the premise and the result of every success claim (spec/60_exceptions.md R124). -/
def State.clean (s : State) : Prop := s.pgu.err = none

end Sys2Proof.Machine
end

