-- ==== Sys2Proof/Certificates/Slice0/Obligations.lean ====
section
/-! DEFINITION. The statements for the provers, from the numbered rules of spec/. -/

open Sys2Proof Sys2Proof.Machine

/-- The host of `s` after it has received the value `v`. -/
def Sys2Proof.Machine.State.told (s : State) (v : Word) : HostSide :=
  { s.host with replies := .value v :: s.host.replies }

/-! ## Encoding and decoding -/

/-- The worked decoding examples, from a not-faulted state: the spec's own inference ("[derived: from rules R52 and
R55]"). -/
def Obligations.DecodingExamples : Prop :=
  ∀ s : State, s.clean →
    cmdWord exec 0x0000000000000003#64 s = exec .offset s ∧
    cmdWord exec 0x0000000000000103#64 s = .next { s with pgu := { s.pgu with err := some .illCmd } } ∧
    cmdWord exec 0x0000000000000000#64 s = .next { s with pgu := { s.pgu with err := some .illCmd } } ∧
    cmdWord exec 0x0000000000000005#64 s = .next { s with pgu := { s.pgu with err := some .illCmd } } ∧
    cmdWord exec 0x0000000000000013#64 s = exec .check s

/-- R54: the opcode map, and that each command has exactly one encoding: a word decodes to a command if and only if it
is that command's word, over all 2^64 words. -/
def Obligations.EachCommandHasOneWord : Prop :=
  (∀ (w : Word) (i : Instr), decodeWord w = .ok i ↔ w = encode i) ∧
    encode .choose = 0x0000000000000001#64 ∧ encode .count = 0x0000000000000002#64 ∧
    encode .offset = 0x0000000000000003#64 ∧ encode .startblk = 0x0000000000000004#64 ∧
    encode .zero = 0x0000000000000010#64 ∧ encode .fill = 0x0000000000000011#64 ∧
    encode .invert = 0x0000000000000012#64 ∧ encode .check = 0x0000000000000013#64

/-- Decode and encode agree on byte strings, in both directions: the eight little-endian bytes of a command, with
anything after them, decode to it, and whatever decodes to a command is its eight bytes and the rest. -/
def Obligations.DecodeEncodeAgreeOnBytes : Prop :=
  (∀ (i : Instr) (rest : List Byte), decodeBytes (encodeBytes i ++ rest) = .ok (i, rest)) ∧
    ∀ (bytes rest : List Byte) (i : Instr), decodeBytes bytes = .ok (i, rest) → bytes = encodeBytes i ++ rest

/-- R55: every word that is none of the eight raises E_ILLCMD and does nothing else. -/
def Obligations.IllegalWordOnlyRaises : Prop :=
  ∀ (s : State) (w : Word), s.clean → (∀ i, w ≠ encode i) →
    cmdWord exec w s = .next { s with pgu := { s.pgu with err := some .illCmd } }

/-! ## Steps -/

/-- A write to CMD at the head of the queue whose word decodes to a well-formed command runs exactly that command, on
the state with the line taken off the queue. -/
def Obligations.StepRunsTheDecodedCommand : Prop :=
  ∀ (s : State) (w : Word) (rest : List HostOp) (i : Instr),
    s.host.script = .regWrite 0x00#5 w :: rest → decodeWord w = .ok i → i.wf = true →
    step s = exec i (s.popScript rest)

/-- With an empty queue a step changes the host only, whatever its phase; with no run, or a run that is over, it
changes nothing: the unit waits for the host's first primitive (R137). The host's side of it is the model's pass
driver (log 6). -/
def Obligations.UnitWaitsForTheHost : Prop :=
  ∀ s : State, s.host.script = [] →
    (∃ h : HostSide, step s = .next { s with host := h } ∧ h.dev = s.host.dev ∧ h.devSize = s.host.devSize) ∧
    ((s.host.phase = .idle ∨ ∃ e, s.host.phase = .ended e) → step s = .next s)

/-- The unit is never stuck: every command in every state, and every line of the queue, completes in a next state, but for
a device transfer past the device's end: the spec's own inference ("[derived: from the pseudocode of every command]"). The
spec gives MemRead and MemWrite for `n >= 1`; that they run for no bytes too, moving none and changing at most ERR, which
takes E_BUFRANGE only above the buffer's end and there by a free value, is the model's choice (log 12). -/
def Obligations.EveryPrimitiveCompletes : Prop :=
  (∀ (i : Instr) (s : State), ∃ t, exec i s = .next t) ∧
  (∀ (s : State) (op : HostOp) (rest : List HostOp), s.host.script = op :: rest →
    (op = .devWrite ∨ op = .devRead →
      s.pgu.len.toNat = 0 ∨ s.pgu.start.toNat + s.pgu.len.toNat ≤ s.host.devSize.toNat) →
    ∃ t, step s = .next t) ∧
  ∀ (s : State) (a : Nat),
    (∃ t, runOp (.memRead a 0) s = .next t ∧
      t.host = { s.host with replies := .bytes [] :: s.host.replies } ∧
      (t.pgu = s.pgu ∨ 134217728 < a ∧ s.clean ∧ t.pgu = { s.pgu with err := some .bufRange })) ∧
    ∃ t, runOp (.memWrite a []) s = .next t ∧ t.host = s.host ∧
      t.pgu = { s.pgu with err := t.pgu.err, buf := t.pgu.buf } ∧
      (t.pgu.err = s.pgu.err ∨ 134217728 < a ∧ s.clean ∧ t.pgu.err = some .bufRange) ∧
      ∀ x, t.pgu.bufByte x = s.pgu.bufByte x

/-! ## The block-range calculator -/

/-- R64: CHOOSE, each check in its order, and the block size it stores, over unbounded naturals, with `BUF_CAP` at its
default of R6 (log 8). -/
def Obligations.ChooseStoresTheBlockSize : Prop :=
  ∀ s : State, s.clean →
    (s.pgu.diskSize.toNat = 0 → exec .choose s = .next { s with pgu := { s.pgu with err := some .diskSize } }) ∧
    (s.pgu.diskSize.toNat ≠ 0 → s.pgu.ovrEn = true →
      (s.pgu.ovr.toNat < 16 ∨ s.pgu.ovr.toNat % 16 ≠ 0 →
        exec .choose s = .next { s with pgu := { s.pgu with err := some .blkSize } }) ∧
      (¬(s.pgu.ovr.toNat < 16 ∨ s.pgu.ovr.toNat % 16 ≠ 0) → 134217728 < s.pgu.ovr.toNat →
        exec .choose s = .next { s with pgu := { s.pgu with err := some .bufCap } }) ∧
      (¬(s.pgu.ovr.toNat < 16 ∨ s.pgu.ovr.toNat % 16 ≠ 0) → s.pgu.ovr.toNat ≤ 134217728 →
        exec .choose s = .next { s with pgu := { s.pgu with blockSize := s.pgu.ovr } })) ∧
    (s.pgu.diskSize.toNat ≠ 0 → s.pgu.ovrEn = false →
      ∀ sEff raw b : Nat,
        sEff = (if s.pgu.sectorSize.toNat = 0 then 512 else s.pgu.sectorSize.toNat) →
        raw = s.pgu.diskSize.toNat / 1000 / sEff * sEff → b = min (max raw 1048576) 134217728 →
        (b % 16 ≠ 0 → exec .choose s = .next { s with pgu := { s.pgu with err := some .blkSize } }) ∧
        (b % 16 = 0 → ∃ v : Word, v.toNat = b ∧
          exec .choose s = .next { s with pgu := { s.pgu with blockSize := v } }))

/-- R65: COUNT, its checks, and the ceiling of the division, computed without wrapping. -/
def Obligations.CountStoresTheCeiling : Prop :=
  ∀ s : State, s.clean →
    (s.pgu.diskSize.toNat = 0 → exec .count s = .next { s with pgu := { s.pgu with err := some .diskSize } }) ∧
    (s.pgu.diskSize.toNat ≠ 0 → s.pgu.blockSize.toNat = 0 →
      exec .count s = .next { s with pgu := { s.pgu with err := some .blkSize } }) ∧
    (s.pgu.diskSize.toNat ≠ 0 → s.pgu.blockSize.toNat ≠ 0 → ∃ v : Word,
      v.toNat = s.pgu.diskSize.toNat / s.pgu.blockSize.toNat
        + (if s.pgu.diskSize.toNat % s.pgu.blockSize.toNat ≠ 0 then 1 else 0) ∧
      exec .count s = .next { s with pgu := { s.pgu with blockCount := v } })

/-- R66: OFFSET, its checks on the unbounded product, and the three results, none of them wrapped. -/
def Obligations.OffsetStoresTheRange : Prop :=
  ∀ (s : State) (d b i : Nat), s.clean → d = s.pgu.diskSize.toNat → b = s.pgu.blockSize.toNat →
    i = s.pgu.index.toNat →
    (b = 0 → exec .offset s = .next { s with pgu := { s.pgu with err := some .blkSize } }) ∧
    (b ≠ 0 → d ≤ i * b → exec .offset s = .next { s with pgu := { s.pgu with err := some .index } }) ∧
    (b ≠ 0 → i * b < d → ∃ first last length : Word,
      first.toNat = i * b ∧ last.toNat = min (i * b + b - 1) (d - 1) ∧
      length.toNat = last.toNat - first.toNat + 1 ∧
      exec .offset s = .next { s with pgu := { s.pgu with start := first, endOff := last, len := length } })

/-- R67: STARTBLK, its checks, and the floor of the division. -/
def Obligations.StartblkStoresTheFloor : Prop :=
  ∀ (s : State) (d b o : Nat), s.clean → d = s.pgu.diskSize.toNat → b = s.pgu.blockSize.toNat →
    o = s.pgu.startOffset.toNat →
    (b = 0 → exec .startblk s = .next { s with pgu := { s.pgu with err := some .blkSize } }) ∧
    (b ≠ 0 → d ≤ o → exec .startblk s = .next { s with pgu := { s.pgu with err := some .startOff } }) ∧
    (b ≠ 0 → o < d → ∃ v : Word, v.toNat = o / b ∧
      exec .startblk s = .next { s with pgu := { s.pgu with startBlock := v } })

/-- The frame of the four block-range commands, for every outcome: the host, BUF, the key, CTRL, the operand registers
and every result register but the command's own are unchanged; ERR may take a code. -/
def Obligations.BlockRangeFrame : Prop :=
  ∀ (i : Instr) (s t : State), i = .choose ∨ i = .count ∨ i = .offset ∨ i = .startblk → exec i s = .next t →
    t.host = s.host ∧
    t.pgu = { s.pgu with
      err := t.pgu.err
      blockSize := if i = .choose then t.pgu.blockSize else s.pgu.blockSize
      blockCount := if i = .count then t.pgu.blockCount else s.pgu.blockCount
      start := if i = .offset then t.pgu.start else s.pgu.start
      endOff := if i = .offset then t.pgu.endOff else s.pgu.endOff
      len := if i = .offset then t.pgu.len else s.pgu.len
      startBlock := if i = .startblk then t.pgu.startBlock else s.pgu.startBlock } ∧
    ∀ a, t.pgu.bufByte a = s.pgu.bufByte a

/-- R70: the ranges of the blocks tile the device with no gap and no overlap, for every positive block size. -/
def Obligations.BlocksTileTheDevice : Prop :=
  ∀ d b n : Nat, 0 < d → 0 < b → n = countFn d b →
    (∀ i < n, ∃ last, offsetFn d b i = some (i * b, last) ∧ i * b ≤ last ∧
      (i + 1 < n → last + 1 = (i + 1) * b ∧ last - i * b + 1 = b) ∧
      (i + 1 = n → last = d - 1 ∧ 1 ≤ last - i * b + 1 ∧ last - i * b + 1 ≤ b)) ∧
    ∃ last, offsetFn d b 0 = some (0, last)

/-- OFFSET's function fails exactly from the block count on: the spec's own inference ("[derived: from rules R65 and
R66]"). -/
def Obligations.ValidIndicesEndAtTheCount : Prop :=
  ∀ d b i : Nat, 0 < d → 0 < b → (offsetFn d b i = none ↔ countFn d b ≤ i)

/-- The lengths of the blocks add up to the device's size: the spec's own inference ("[derived: from rule R70]"). -/
def Obligations.BlockLengthsSumToTheDevice : Prop :=
  ∀ d b : Nat, 0 < d → 0 < b →
    ((List.range (countFn d b)).map fun i =>
      match offsetFn d b i with
      | some (first, last) => last - first + 1
      | none => 0).sum = d

/-- What a CHOOSE that does not fault leaves in BLOCK_SIZE: the spec's own inference ("[derived: from rules R63 and
R64]"), but for its last remark. -/
def Obligations.ChosenSizeIsValid : Prop :=
  ∀ (s t : State) (b d sEff : Nat), s.clean → exec .choose s = .next t → t.clean → b = t.pgu.blockSize.toNat →
    d = s.pgu.diskSize.toNat → sEff = (if s.pgu.sectorSize.toNat = 0 then 512 else s.pgu.sectorSize.toNat) →
    b % 16 = 0 ∧ 16 ≤ b ∧ b ≤ 134217728 ∧
    (s.pgu.ovrEn = false →
      1048576 ≤ b ∧ (b = 1048576 ∨ b = 134217728 ∨ (sEff ∣ b ∧ b ≤ d / 1000)) ∧
      (1048576 < b → b < 134217728 → 1000 ≤ countFn d b) ∧
      (134217728 < d / 1000 / sEff * sEff → 1000 < countFn d b))

/-- A start block that STARTBLK has stored is a valid index while the plan is unchanged, and the block it names holds
the start offset: two corner cases that the spec marks "[derived: from rule R66]" and "[derived: from `o / b` being a
floor]". -/
def Obligations.StartBlockIsAValidIndex : Prop :=
  ∀ s t : State, s.clean → exec .startblk s = .next t → t.clean →
    ∃ u : State, exec .offset { t with pgu := { t.pgu with index := t.pgu.startBlock } } = .next u ∧ u.clean ∧
      u.pgu.start.toNat ≤ s.pgu.startOffset.toNat ∧ s.pgu.startOffset.toNat ≤ u.pgu.endOff.toNat

/-! ## The pattern engine and the zero checker -/

/-- R81: ZERO clears `BUF[0..BLOCK_SIZE)` and nothing else; E_BLKSIZE with no block size. -/
def Obligations.ZeroClearsTheBlock : Prop :=
  ∀ s : State, s.clean →
    (s.pgu.blockSize.toNat = 0 → exec .zero s = .next { s with pgu := { s.pgu with err := some .blkSize } }) ∧
    (s.pgu.blockSize.toNat ≠ 0 → ∃ m : Mem, exec .zero s = .next { s with pgu := { s.pgu with buf := m } } ∧
      ∀ a, Pgu.bufByte { s.pgu with buf := m } a = if a < s.pgu.blockSize.toNat then 0#8 else s.pgu.bufByte a)

/-- R82: FILL encrypts `BUF[0..BLOCK_SIZE)` in place as one sector under the fixed tweak, and nothing else; E_BLKSIZE,
then E_KEY. `TBC` and `TWEAK_SEED` have their defaults of R6 (log 8). -/
def Obligations.FillEncryptsTheBlock : Prop :=
  ∀ (s : State) (b : Nat), s.clean → b = s.pgu.blockSize.toNat →
    (b = 0 → exec .fill s = .next { s with pgu := { s.pgu with err := some .blkSize } }) ∧
    (b ≠ 0 → s.pgu.keyw ≠ 0b1111#4 → exec .fill s = .next { s with pgu := { s.pgu with err := some .key } }) ∧
    (b ≠ 0 → s.pgu.keyw = 0b1111#4 → ∃ m : Mem, exec .fill s = .next { s with pgu := { s.pgu with buf := m } } ∧
      Pgu.bufRead { s.pgu with buf := m } 0 b =
        xtsEnc s.pgu.subKey1 s.pgu.subKey2 (zeros 16) (s.pgu.bufRead 0 b) ∧
      ∀ a, b ≤ a → Pgu.bufByte { s.pgu with buf := m } a = s.pgu.bufByte a)

/-- R83: INVERT decrypts `BUF[0..LEN)` in place, and nothing else; E_BLKSIZE, then E_KEY, then E_LEN. `TBC` and
`TWEAK_SEED` have their defaults of R6 (log 8). -/
def Obligations.InvertDecryptsTheLength : Prop :=
  ∀ (s : State) (b n : Nat), s.clean → b = s.pgu.blockSize.toNat → n = s.pgu.len.toNat →
    (b = 0 → exec .invert s = .next { s with pgu := { s.pgu with err := some .blkSize } }) ∧
    (b ≠ 0 → s.pgu.keyw ≠ 0b1111#4 → exec .invert s = .next { s with pgu := { s.pgu with err := some .key } }) ∧
    (b ≠ 0 → s.pgu.keyw = 0b1111#4 → n = 0 ∨ n % 16 ≠ 0 ∨ b < n →
      exec .invert s = .next { s with pgu := { s.pgu with err := some .len } }) ∧
    (b ≠ 0 → s.pgu.keyw = 0b1111#4 → ¬(n = 0 ∨ n % 16 ≠ 0 ∨ b < n) →
      ∃ m : Mem, exec .invert s = .next { s with pgu := { s.pgu with buf := m } } ∧
        Pgu.bufRead { s.pgu with buf := m } 0 n =
          xtsDec s.pgu.subKey1 s.pgu.subKey2 (zeros 16) (s.pgu.bufRead 0 n) ∧
        ∀ a, n ≤ a → Pgu.bufByte { s.pgu with buf := m } a = s.pgu.bufByte a)

/-- R91: CHECK, with BADOFF as the exact sum in every state in which it fits (corner a; it fits in every reachable one
by R38 b, see StepKeepsTheInvariant). -/
def Obligations.CheckFindsTheFirstNonZeroByte : Prop :=
  ∀ s : State, s.clean → s.pgu.start.toNat + s.pgu.len.toNat ≤ 2 ^ 64 →
    (s.pgu.len.toNat = 0 → exec .check s = .next { s with pgu := { s.pgu with err := some .len } }) ∧
    (s.pgu.len.toNat ≠ 0 → (∀ i < s.pgu.len.toNat, s.pgu.bufByte i = 0#8) → exec .check s = .next s) ∧
    (∀ i0 < s.pgu.len.toNat, s.pgu.bufByte i0 ≠ 0#8 → (∀ i < i0, s.pgu.bufByte i = 0#8) →
      ∃ v : Word, v.toNat = s.pgu.start.toNat + i0 ∧
        exec .check s = .next { s with pgu := { s.pgu with err := some .mismatch, badOff := v } })

/-- The frame of ZERO, FILL, INVERT and CHECK, for every outcome: every register but ERR (and, for CHECK, BADOFF) and
the host are unchanged; every byte of BUF outside the stored prefix (BLOCK_SIZE bytes for ZERO and FILL, LEN bytes for
INVERT, none for CHECK) reads as before. -/
def Obligations.EngineFrame : Prop :=
  ∀ (i : Instr) (s t : State), i = .zero ∨ i = .fill ∨ i = .invert ∨ i = .check → exec i s = .next t →
    t.host = s.host ∧
    t.pgu = { s.pgu with
      err := t.pgu.err
      badOff := if i = .check then t.pgu.badOff else s.pgu.badOff
      buf := if i = .check then s.pgu.buf else t.pgu.buf } ∧
    ∀ a, (if i = .zero ∨ i = .fill then s.pgu.blockSize.toNat else if i = .invert then s.pgu.len.toNat else 0) ≤ a →
      t.pgu.bufByte a = s.pgu.bufByte a

/-- What ZERO then FILL leave is a function of the key bytes and the block size alone, for any lawful cipher: the same
in two units with the same key and block size, and shorter patterns are prefixes of longer ones. The spec's own
inference ("[derived: from rules R82, R84, R88, R89]"). -/
def Obligations.PatternDependsOnKeyAndSizeOnly : Prop :=
  ∀ (cfg : Config) (p q : Pgu), cfg.Valid → p.err = none → q.err = none →
    p.keyw = 0b1111#4 → q.keyw = 0b1111#4 → p.keyBytes = q.keyBytes →
    p.blockSizeOk cfg → q.blockSizeOk cfg → p.blockSize.toNat ≠ 0 → q.blockSize.toNat ≠ 0 →
    p.blockSize.toNat ≤ q.blockSize.toNat →
    (p.zero.fill cfg).bufRead 0 p.blockSize.toNat =
      cfg.tbc.enc p.subKey1 p.subKey2 (tweakBytes cfg) (zeros p.blockSize.toNat) ∧
    (p.zero.fill cfg).bufRead 0 p.blockSize.toNat =
      ((q.zero.fill cfg).bufRead 0 q.blockSize.toNat).take p.blockSize.toNat

/-- ZERO, FILL, INVERT, CHECK over a full block raises nothing and leaves zeros, and FILL then INVERT restores the block
whatever it held, for any lawful cipher: the spec's own inference ("[derived: from rules R81, R82, R83, R87, R91]"). -/
def Obligations.FillThenInvertRestores : Prop :=
  ∀ (cfg : Config) (p : Pgu), cfg.Valid → p.err = none → p.keyw = 0b1111#4 → p.blockSizeOk cfg →
    p.blockSize.toNat ≠ 0 → p.len = p.blockSize →
    (((p.zero.fill cfg).invert cfg).check.err = none ∧
      ∀ a < p.blockSize.toNat, ((p.zero.fill cfg).invert cfg).check.bufByte a = 0#8) ∧
    ∀ a, ((p.fill cfg).invert cfg).bufByte a = p.bufByte a

/-- The spec's own inference ("[derived: from rules R83, R87, R89, R91]"): the verify oracle is exact in both
directions, for any lawful cipher: INVERT then CHECK raise nothing if and only if the loaded bytes are the first LEN
bytes of the pattern of the block size; any other bytes give E_MISMATCH; a length that is no multiple of 16 gives
E_LEN. -/
def Obligations.VerifyOracleIsExact : Prop :=
  ∀ (cfg : Config) (p : Pgu) (pattern : List Byte), cfg.Valid → p.err = none → p.keyw = 0b1111#4 →
    p.blockSizeOk cfg → p.blockSize.toNat ≠ 0 → 1 ≤ p.len.toNat → p.len.toNat ≤ p.blockSize.toNat →
    pattern = cfg.tbc.enc p.subKey1 p.subKey2 (tweakBytes cfg) (zeros p.blockSize.toNat) →
    (p.len.toNat % 16 = 0 → p.bufRead 0 p.len.toNat = pattern.take p.len.toNat →
      (p.invert cfg).check.err = none) ∧
    (p.len.toNat % 16 = 0 → p.bufRead 0 p.len.toNat ≠ pattern.take p.len.toNat →
      (p.invert cfg).check.err = some .mismatch) ∧
    (p.len.toNat % 16 ≠ 0 → (p.invert cfg).err = some .len)

/-- Zero mode needs no key: ZERO then CHECK over any length within the block raise nothing, whatever KEYW is: neither
faults, and the CHECK, in the not-faulted state that ZERO leaves, changes nothing. -/
def Obligations.ZeroModeNeedsNoKey : Prop :=
  ∀ s : State, s.clean → s.pgu.blockSize.toNat ≠ 0 → 1 ≤ s.pgu.len.toNat →
    s.pgu.len.toNat ≤ s.pgu.blockSize.toNat →
    ∃ t : State, exec .zero s = .next t ∧ t.clean ∧ exec .check t = .next t

/-! ## The default cipher -/

/-- The published examples of AES-128 and of XTS-AES-128, which the spec marks "[from general knowledge, not in
source]". -/
def Obligations.PublishedCipherVectors : Prop :=
  aesEnc ⟨⟨0x00, 0x01, 0x02, 0x03⟩, ⟨0x04, 0x05, 0x06, 0x07⟩, ⟨0x08, 0x09, 0x0a, 0x0b⟩, ⟨0x0c, 0x0d, 0x0e, 0x0f⟩⟩
      ⟨⟨0x00, 0x11, 0x22, 0x33⟩, ⟨0x44, 0x55, 0x66, 0x77⟩, ⟨0x88, 0x99, 0xaa, 0xbb⟩, ⟨0xcc, 0xdd, 0xee, 0xff⟩⟩ =
    ⟨⟨0x69, 0xc4, 0xe0, 0xd8⟩, ⟨0x6a, 0x7b, 0x04, 0x30⟩, ⟨0xd8, 0xcd, 0xb7, 0x80⟩, ⟨0x70, 0xb4, 0xc5, 0x5a⟩⟩ ∧
  aesDec ⟨⟨0x00, 0x01, 0x02, 0x03⟩, ⟨0x04, 0x05, 0x06, 0x07⟩, ⟨0x08, 0x09, 0x0a, 0x0b⟩, ⟨0x0c, 0x0d, 0x0e, 0x0f⟩⟩
      ⟨⟨0x69, 0xc4, 0xe0, 0xd8⟩, ⟨0x6a, 0x7b, 0x04, 0x30⟩, ⟨0xd8, 0xcd, 0xb7, 0x80⟩, ⟨0x70, 0xb4, 0xc5, 0x5a⟩⟩ =
    ⟨⟨0x00, 0x11, 0x22, 0x33⟩, ⟨0x44, 0x55, 0x66, 0x77⟩, ⟨0x88, 0x99, 0xaa, 0xbb⟩, ⟨0xcc, 0xdd, 0xee, 0xff⟩⟩ ∧
  aesEnc ⟨⟨0x2b, 0x7e, 0x15, 0x16⟩, ⟨0x28, 0xae, 0xd2, 0xa6⟩, ⟨0xab, 0xf7, 0x15, 0x88⟩, ⟨0x09, 0xcf, 0x4f, 0x3c⟩⟩
      ⟨⟨0x32, 0x43, 0xf6, 0xa8⟩, ⟨0x88, 0x5a, 0x30, 0x8d⟩, ⟨0x31, 0x31, 0x98, 0xa2⟩, ⟨0xe0, 0x37, 0x07, 0x34⟩⟩ =
    ⟨⟨0x39, 0x25, 0x84, 0x1d⟩, ⟨0x02, 0xdc, 0x09, 0xfb⟩, ⟨0xdc, 0x11, 0x85, 0x97⟩, ⟨0x19, 0x6a, 0x0b, 0x32⟩⟩ ∧
  xtsEnc (zeros 16) (zeros 16) (le128 0) (zeros 32) =
    [0x91, 0x7c, 0xf6, 0x9e, 0xbd, 0x68, 0xb2, 0xec, 0x9b, 0x9f, 0xe9, 0xa3, 0xea, 0xdd, 0xa6, 0x92,
     0xcd, 0x43, 0xd2, 0xf5, 0x95, 0x98, 0xed, 0x85, 0x8c, 0x02, 0xc2, 0x65, 0x2f, 0xbf, 0x92, 0x2e] ∧
  xtsEnc (List.replicate 16 0x11) (List.replicate 16 0x22) (le128 0x3333333333) (List.replicate 32 0x44) =
    [0xc4, 0x54, 0x18, 0x5e, 0x6a, 0x16, 0x93, 0x6e, 0x39, 0x33, 0x40, 0x38, 0xac, 0xef, 0x83, 0x8b,
     0xfb, 0x18, 0x6f, 0xff, 0x74, 0x80, 0xad, 0xc4, 0x28, 0x93, 0x82, 0xec, 0xd6, 0xd3, 0x94, 0xf0]

/-- The S-box table is the affine image of the inverse in GF(2^8), and the other table inverts it: general knowledge by
the spec's own mark ("[from general knowledge, not in source] The S-box"). -/
def Obligations.SboxIsTheAlgebraicOne : Prop :=
  ∀ a : Byte, invSbox (sbox a) = a ∧ ∃ b : Byte, ((a = 0#8 ∧ b = 0#8) ∨ gmul a b = 1#8) ∧
    sbox a = b ^^^ b.rotateLeft 1 ^^^ b.rotateLeft 2 ^^^ b.rotateLeft 3 ^^^ b.rotateLeft 4 ^^^ 0x63#8

/-- General knowledge by the spec's own mark ("[from general knowledge, not in source] Decryption"): decryption undoes
encryption and encryption undoes decryption, for every key and block. -/
def Obligations.AesDecryptionInvertsEncryption : Prop :=
  ∀ k p : Block, aesDec k (aesEnc k p) = p ∧ aesEnc k (aesDec k p) = p

/-- XTS-AES-128 obeys the laws T1, T2 and T4 over the domain T5, whatever its upper end: general knowledge and
inference by the spec's own marks ("[derived: from rules R161, R164, R165]"). -/
def Obligations.XtsObeysTheCipherLaws : Prop := ∀ cap : Nat, xtsAes128.Lawful cap

/-- Locality, an inference by the spec's own mark ("[derived: from rules R164, R165]"): cipher block `j` of the output
depends only on cipher block `j` of the input. -/
def Obligations.XtsIsLocal : Prop :=
  ∀ (k1 k2 t s s' : List Byte) (j : Nat), s.length = s'.length → s.length % 16 = 0 → 16 * j + 16 ≤ s.length →
    (s.drop (16 * j)).take 16 = (s'.drop (16 * j)).take 16 →
    ((xtsEnc k1 k2 t s).drop (16 * j)).take 16 = ((xtsEnc k1 k2 t s').drop (16 * j)).take 16 ∧
    ((xtsDec k1 k2 t s).drop (16 * j)).take 16 = ((xtsDec k1 k2 t s').drop (16 * j)).take 16

/-- Where corrupted read-back data shows, an inference by the spec's own mark ("[derived: from rules R164, R165]"): if
the data first differs from the pattern at index `c`, the first non-zero byte after decryption lies in the cipher
block that holds `c`. -/
def Obligations.CorruptionShowsInItsCipherBlock : Prop :=
  ∀ (k1 k2 t r pattern : List Byte) (c : Nat), r.length % 16 = 0 →
    pattern = xtsEnc k1 k2 t (zeros r.length) → c < r.length → r[c]? ≠ pattern[c]? →
    (∀ j < c, r[j]? = pattern[j]?) →
    ∃ e < 16, firstNonZero (xtsDec k1 k2 t r) = some (16 * (c / 16) + e)

/-! ## Faults -/

/-- A command issued while faulted does nothing (R68, R123). -/
def Obligations.FaultedCommandsAreIgnored : Prop :=
  ∀ (i : Instr) (s : State), s.pgu.err ≠ none → exec i s = .next s

/-- R123: in the faulted state every write and command changes nothing, and every read works, returns zeros where it
would have raised, and records nothing. -/
def Obligations.FaultedStateIsFrozen : Prop :=
  ∀ (s : State) (r : RegNum) (v : Word) (a n : Nat) (data : List Byte), s.pgu.err ≠ none →
    runOp (.regWrite r v) s = .next s ∧ runOp (.memWrite a data) s = .next s ∧
    runOp (.regRead r) s = .next { s with host := { s.host with
      replies := .value (if r = 0x0F#5 ∨ 0x14#5 ≤ r then 0#64 else s.pgu.regView (regName r)) :: s.host.replies } } ∧
    runOp (.memRead a n) s = .next { s with host := { s.host with
      replies := .bytes (if 134217728 < a + n then zeros n else s.pgu.bufRead a n) :: s.host.replies } }

/-- R124: the first fault sticks: over any step but a reset a faulted unit does not change at all. -/
def Obligations.FirstFaultSticks : Prop :=
  ∀ s t : State, s.pgu.err ≠ none → step s = .next t → (∀ rest, s.host.script ≠ .reset :: rest) → t.pgu = s.pgu

/-- R122: what raising a fault does, and nothing more; and a step that faults has no partial effect: the unit differs in
ERR only, and in BADOFF for E_MISMATCH only. -/
def Obligations.FaultsArePrecise : Prop :=
  (∀ (p : Pgu) (e : ErrCode), p.err = none → p.raise e = { p with err := some e }) ∧
  (∀ (p : Pgu) (off : Nat), p.err = none → off < 2 ^ 64 →
    ∃ v : Word, v.toNat = off ∧ p.raiseMismatch off = { p with err := some .mismatch, badOff := v }) ∧
  ∀ (s t : State) (e : ErrCode), s.clean → step s = .next t → t.pgu.err = some e →
    t.pgu = { s.pgu with err := some e, badOff := if e = .mismatch then t.pgu.badOff else s.pgu.badOff }

/-! ## Registers and buffer -/

/-- R40: RegRead, by register number: a reserved number raises E_ILLREG and returns 0; CMD and the KEY registers return
0; the others return their values; nothing else changes. -/
def Obligations.RegReadReturnsTheRegister : Prop :=
  ∀ (s : State) (r : RegNum),
    (r = 0x0F#5 ∨ 0x14#5 ≤ r → s.clean → runOp (.regRead r) s =
      .next { pgu := { s.pgu with err := some .illReg }, host := s.told 0#64 }) ∧
    (r = 0x0F#5 ∨ 0x14#5 ≤ r → ¬ s.clean → runOp (.regRead r) s = .next { s with host := s.told 0#64 }) ∧
    (r = 0x00#5 ∨ (0x10#5 ≤ r ∧ r ≤ 0x13#5) → runOp (.regRead r) s = .next { s with host := s.told 0#64 }) ∧
    runOp (.regRead 0x01#5) s = .next { s with host := s.told s.pgu.statusWord } ∧
    runOp (.regRead 0x02#5) s = .next { s with host := s.told (if s.pgu.ovrEn then 1#64 else 0#64) } ∧
    runOp (.regRead 0x03#5) s = .next { s with host := s.told s.pgu.diskSize } ∧
    runOp (.regRead 0x04#5) s = .next { s with host := s.told (s.pgu.sectorSize.zeroExtend 64) } ∧
    runOp (.regRead 0x05#5) s = .next { s with host := s.told s.pgu.ovr } ∧
    runOp (.regRead 0x06#5) s = .next { s with host := s.told s.pgu.startOffset } ∧
    runOp (.regRead 0x07#5) s = .next { s with host := s.told s.pgu.index } ∧
    runOp (.regRead 0x08#5) s = .next { s with host := s.told s.pgu.blockSize } ∧
    runOp (.regRead 0x09#5) s = .next { s with host := s.told s.pgu.blockCount } ∧
    runOp (.regRead 0x0A#5) s = .next { s with host := s.told s.pgu.start } ∧
    runOp (.regRead 0x0B#5) s = .next { s with host := s.told s.pgu.endOff } ∧
    runOp (.regRead 0x0C#5) s = .next { s with host := s.told s.pgu.len } ∧
    runOp (.regRead 0x0D#5) s = .next { s with host := s.told s.pgu.startBlock } ∧
    runOp (.regRead 0x0E#5) s = .next { s with host := s.told s.pgu.badOff }

/-- R41: RegWrite, by register number: ignored while faulted; else what each write stores, and the three that fault. -/
def Obligations.RegWriteStoresTheValue : Prop :=
  ∀ (s : State) (r : RegNum) (v : Word), (¬ s.clean → runOp (.regWrite r v) s = .next s) ∧ (s.clean →
    (r = 0x0F#5 ∨ 0x14#5 ≤ r → runOp (.regWrite r v) s = .next { s with pgu := { s.pgu with err := some .illReg } }) ∧
    (r = 0x01#5 ∨ (0x08#5 ≤ r ∧ r ≤ 0x0E#5) →
      runOp (.regWrite r v) s = .next { s with pgu := { s.pgu with err := some .illReg } }) ∧
    runOp (.regWrite 0x00#5 v) s = cmdWord exec v s ∧
    runOp (.regWrite 0x02#5 v) s = .next { s with pgu := { s.pgu with ovrEn := v.getLsbD 0 } } ∧
    runOp (.regWrite 0x03#5 v) s = .next { s with pgu := { s.pgu with diskSize := v } } ∧
    (2 ^ 32 ≤ v.toNat → runOp (.regWrite 0x04#5 v) s = .next { s with pgu := { s.pgu with err := some .range } }) ∧
    (v.toNat < 2 ^ 32 → ∃ x : BitVec 32, x.toNat = v.toNat ∧
      runOp (.regWrite 0x04#5 v) s = .next { s with pgu := { s.pgu with sectorSize := x } }) ∧
    runOp (.regWrite 0x05#5 v) s = .next { s with pgu := { s.pgu with ovr := v } } ∧
    runOp (.regWrite 0x06#5 v) s = .next { s with pgu := { s.pgu with startOffset := v } } ∧
    runOp (.regWrite 0x07#5 v) s = .next { s with pgu := { s.pgu with index := v } } ∧
    runOp (.regWrite 0x10#5 v) s = .next { s with pgu := { s.pgu with key0 := v, keyw := s.pgu.keyw ||| 1#4 } } ∧
    runOp (.regWrite 0x11#5 v) s = .next { s with pgu := { s.pgu with key1 := v, keyw := s.pgu.keyw ||| 2#4 } } ∧
    runOp (.regWrite 0x12#5 v) s = .next { s with pgu := { s.pgu with key2 := v, keyw := s.pgu.keyw ||| 4#4 } } ∧
    runOp (.regWrite 0x13#5 v) s = .next { s with pgu := { s.pgu with key3 := v, keyw := s.pgu.keyw ||| 8#4 } })

/-- The layout of STATUS as software reads it: ERR in bits 7:0, KEYW in bits 11:8, and bits 63:12 (BUSY and the reserved
field) zero; ERR is 0 exactly when the unit is not faulted (R17). -/
def Obligations.StatusWordLayout : Prop :=
  ∀ p : Pgu, p.statusWord.extractLsb' 0 8 = p.errField ∧ p.statusWord.extractLsb' 8 4 = p.keyw ∧
    p.statusWord.extractLsb' 12 52 = 0#52 ∧ (p.errField = 0#8 ↔ p.err = none)

/-- The key's byte order: byte `j` of the 32 is byte `j mod 8` of KEY`(j / 8)`, least significant first, and the two
sub-keys are its halves (R31). -/
def Obligations.KeyBytesAreLittleEndian : Prop :=
  ∀ (p : Pgu) (j : Nat), j < 32 →
    p.keyBytes[j]? = some
      ((if j / 8 = 0 then p.key0 else if j / 8 = 1 then p.key1 else if j / 8 = 2 then p.key2 else p.key3).extractLsb'
        (8 * (j % 8)) 8) ∧
    p.keyBytes = p.subKey1 ++ p.subKey2 ∧ p.subKey1.length = 16 ∧ p.subKey2.length = 16

/-- R43: MemRead returns the bytes in index order and changes nothing; past the buffer's end it raises E_BUFRANGE, if
the unit is not already faulted, and returns zeros. -/
def Obligations.MemReadReturnsTheBytes : Prop :=
  ∀ (s : State) (a n : Nat), 1 ≤ n →
    (a + n ≤ 134217728 → ∃ data : List Byte, data.length = n ∧ (∀ i < n, data[i]? = some (s.pgu.bufByte (a + i))) ∧
      runOp (.memRead a n) s = .next { s with host := { s.host with replies := .bytes data :: s.host.replies } }) ∧
    (134217728 < a + n → s.clean → runOp (.memRead a n) s =
      .next { pgu := { s.pgu with err := some .bufRange }
              host := { s.host with replies := .bytes (zeros n) :: s.host.replies } }) ∧
    (134217728 < a + n → ¬ s.clean → runOp (.memRead a n) s =
      .next { s with host := { s.host with replies := .bytes (zeros n) :: s.host.replies } })

/-- R44: MemWrite stores its bytes and no other; past the buffer's end it raises E_BUFRANGE and stores none; while
faulted it is ignored. -/
def Obligations.MemWriteStoresTheBytes : Prop :=
  ∀ (s : State) (a : Nat) (data : List Byte), 1 ≤ data.length →
    (¬ s.clean → runOp (.memWrite a data) s = .next s) ∧
    (s.clean → 134217728 < a + data.length →
      runOp (.memWrite a data) s = .next { s with pgu := { s.pgu with err := some .bufRange } }) ∧
    (s.clean → a + data.length ≤ 134217728 → ∃ m : Mem,
      runOp (.memWrite a data) s = .next { s with pgu := { s.pgu with buf := m } } ∧
      (∀ i < data.length, data[i]? = some (Pgu.bufByte { s.pgu with buf := m } (a + i))) ∧
      ∀ x, x < a ∨ a + data.length ≤ x → Pgu.bufByte { s.pgu with buf := m } x = s.pgu.bufByte x)

/-- A buffer read of any length at any index is the concatenation of shorter ones: BUF has no byte order (R45) and no
alignment rule (R47). -/
def Obligations.BufferReadsConcatenate : Prop :=
  ∀ (p : Pgu) (a m n : Nat), p.bufRead a (m + n) = p.bufRead a m ++ p.bufRead (a + m) n

/-- Program order over the buffer: what MemWrite stored a following MemRead of the same bytes returns (R46). -/
def Obligations.WriteThenReadReturnsTheBytes : Prop :=
  ∀ (s : State) (a : Nat) (data : List Byte), s.clean → 1 ≤ data.length → a + data.length ≤ 134217728 →
    ∃ t u : State, runOp (.memWrite a data) s = .next t ∧ runOp (.memRead a data.length) t = .next u ∧
      u.host.replies = .bytes data :: s.host.replies ∧ u.pgu = t.pgu

/-- The bus windows: with the two windows apart, no register word shares an address with another register's or with a
buffer byte; under the bases R42 admits each register is a naturally aligned word of the register window; and the bus
access a script line encodes as determines the line (R60). -/
def Obligations.BusAddressesDoNotCollide : Prop :=
  (∀ (m : BusMap) (r r' : RegNum) (k k' a : Nat), windowsApart Config.standard m → k < 8 → k' < 8 →
    a < Config.standard.bufCap →
    (regBusAddr m r + k = regBusAddr m r' + k' → r = r' ∧ k = k') ∧ regBusAddr m r + k ≠ bufBusAddr m a) ∧
  (∀ (cfg : Config) (m : BusMap) (r : RegNum), BusMapOk cfg m →
    8 ∣ regBusAddr m r ∧ m.pguBase ≤ regBusAddr m r ∧ regBusAddr m r + 8 ≤ m.pguBase + 256) ∧
  ∀ (m : BusMap) (op op' : HostOp) (x : BusAccess), busAccess m op = some x → busAccess m op' = some x → op = op'

/-! ## Reset and invariants -/

/-- R37: what a reset leaves in the registers, from any state. It says nothing of the KEY registers and of the bytes of
BUF, which the spec leaves unspecified; the host is not reset. -/
def Obligations.ResetLeavesZeros : Prop :=
  ∀ s : State, ∃ t : State, runOp .reset s = .next t ∧ t.host = s.host ∧
    t.pgu.err = none ∧ t.pgu.keyw = 0#4 ∧ t.pgu.statusWord = 0#64 ∧ t.pgu.ovrEn = false ∧
    t.pgu.diskSize = 0#64 ∧ t.pgu.sectorSize = 0#32 ∧ t.pgu.ovr = 0#64 ∧ t.pgu.startOffset = 0#64 ∧
    t.pgu.index = 0#64 ∧ t.pgu.blockSize = 0#64 ∧ t.pgu.blockCount = 0#64 ∧ t.pgu.start = 0#64 ∧
    t.pgu.endOff = 0#64 ∧ t.pgu.len = 0#64 ∧ t.pgu.startBlock = 0#64 ∧ t.pgu.badOff = 0#64

/-- The machine right after reset meets the invariant. -/
def Obligations.ResetMeetsTheInvariant : Prop := State.reset.Inv

/-- R38 (a), (b), (d), the canonical form of the buffer and of the device, and their bounds: every step keeps them, from
every state that meets them. -/
def Obligations.StepKeepsTheInvariant : Prop := ∀ s t : State, s.Inv → step s = .next t → t.Inv

/-- The invariant under any valid parameters, not only the defaults: each command and each buffer write keeps the
unit's, and each step of the machine under those parameters keeps the machine's. -/
def Obligations.CommandsKeepTheInvariantUnderAnyParameters : Prop :=
  ∀ cfg : Config, cfg.Valid →
    (∀ p : Pgu, p.Inv cfg → p.err = none →
      (p.choose cfg).Inv cfg ∧ p.count.Inv cfg ∧ p.offset.Inv cfg ∧ p.startblk.Inv cfg ∧ p.zero.Inv cfg ∧
      (p.fill cfg).Inv cfg ∧ (p.invert cfg).Inv cfg ∧ p.check.Inv cfg ∧
      ∀ (a : Nat) (data : List Byte), (p.memWrite cfg a data).Inv cfg) ∧
    ∀ s t : State, s.InvUnder cfg → stepUnder cfg s = .next t → t.InvUnder cfg

/-- A step that is not CHECK never reports a mismatch, and BADOFF changes only in a step that is CHECK or a reset. -/
def Obligations.OnlyCheckReportsAMismatch : Prop :=
  ∀ s t : State, step s = .next t →
    (s.clean → t.pgu.err = some .mismatch → ∃ rest, s.host.script = .regWrite 0x00#5 (encode .check) :: rest) ∧
    ((∀ rest, s.host.script ≠ .reset :: rest) →
      (∀ rest, s.host.script ≠ .regWrite 0x00#5 (encode .check) :: rest) → t.pgu.badOff = s.pgu.badOff)

/-- Key registers and KEYW bits change only by a write to a KEY register or a reset: no command, no read and no buffer
transfer touches them (R17, R31). -/
def Obligations.OnlyKeyWritesChangeTheKey : Prop :=
  ∀ s t : State, step s = .next t →
    (∀ rest, s.host.script ≠ .reset :: rest) →
    (∀ r v rest, 0x10#5 ≤ r → r ≤ 0x13#5 → s.host.script ≠ .regWrite r v :: rest) →
    t.pgu.keyw = s.pgu.keyw ∧ t.pgu.keyBytes = s.pgu.keyBytes

/-! ## The host and its device -/

/-- DEVWR over a device that reports no error: faithful, it moves the first LEN bytes of BUF to `DEV[START ..
START+LEN)`; with an answer of LEN other bytes the range holds those. It changes no other byte of the device and
nothing of the unit (R104; the answers are the model's form of the free device, log 5). -/
def Obligations.DevWriteMovesTheBlock : Prop :=
  ∀ (s : State) (a n : Nat), a = s.pgu.start.toNat → n = s.pgu.len.toNat → 1 ≤ n → n ≤ 134217728 →
    a + n ≤ s.host.devSize.toNat →
    (s.host.nextAnswer = .faithful → ∃ m : Mem,
      runOp .devWrite s = .next { s with host := { s.host with dev := m, answers := s.host.answers.tail } } ∧
      ∀ x, HostSide.devByte { s.host with dev := m } x =
        if a ≤ x ∧ x < a + n then s.pgu.bufByte (x - a) else s.host.devByte x) ∧
    ∀ data : List Byte, s.host.nextAnswer = .altered data → data.length = n → ∃ m : Mem,
      runOp .devWrite s = .next { s with host := { s.host with dev := m, answers := s.host.answers.tail } } ∧
      (∀ i < n, data[i]? = some (HostSide.devByte { s.host with dev := m } (a + i))) ∧
      ∀ x, x < a ∨ a + n ≤ x → HostSide.devByte { s.host with dev := m } x = s.host.devByte x

/-- DEVRD over a device that reports no error: faithful, it loads `DEV[START .. START+LEN)` into the first LEN bytes of
BUF; with an answer of LEN other bytes BUF holds those. It changes nothing else of the unit and no byte of the device
(R104; the answers are the model's form of the free device, log 5). -/
def Obligations.DevReadLoadsTheBlock : Prop :=
  ∀ (s : State) (a n : Nat), s.clean → a = s.pgu.start.toNat → n = s.pgu.len.toNat → 1 ≤ n → n ≤ 134217728 →
    a + n ≤ s.host.devSize.toNat →
    (s.host.nextAnswer = .faithful → ∃ m : Mem, runOp .devRead s =
        .next { pgu := { s.pgu with buf := m }, host := { s.host with answers := s.host.answers.tail } } ∧
      ∀ x, Pgu.bufByte { s.pgu with buf := m } x = if x < n then s.host.devByte (a + x) else s.pgu.bufByte x) ∧
    ∀ data : List Byte, s.host.nextAnswer = .altered data → data.length = n → ∃ m : Mem, runOp .devRead s =
        .next { pgu := { s.pgu with buf := m }, host := { s.host with answers := s.host.answers.tail } } ∧
      (∀ i < n, data[i]? = some (Pgu.bufByte { s.pgu with buf := m } i)) ∧
      ∀ x, n ≤ x → Pgu.bufByte { s.pgu with buf := m } x = s.pgu.bufByte x

/-- Where the two device transfers stop, where they fail, and what they do for no bytes. A byte past the device's end is a
fault (the model's own, log 5); an I/O failure, or an answer of another number of bytes than asked for, ends the run and
empties the queue (R104, R110). A read that fails leaves the device, a write that fails every byte outside the range, and
inside it what the failing answer says (the model's form of what the spec leaves open, log 5). With LEN = 0 the transfer
runs, moves no byte, and changes nothing but the answers left, unless the device answers with a failure (log 12). -/
def Obligations.DeviceTransfersStopOrFail : Prop :=
  ∀ (s : State) (op : HostOp) (a n : Nat), op = .devWrite ∨ op = .devRead → a = s.pgu.start.toNat →
    n = s.pgu.len.toNat →
    (n ≠ 0 → s.host.devSize.toNat < a + n → runOp op s = .fault .deviceRange) ∧
    (n = 0 → s.host.nextAnswer = .faithful ∨ s.host.nextAnswer = .altered [] →
      ∃ m : Mem, runOp op s = .next { s with host := { s.host with dev := m, answers := s.host.answers.tail } } ∧
        ∀ x, HostSide.devByte { s.host with dev := m } x = s.host.devByte x) ∧
    (n = 0 ∨ a + n ≤ s.host.devSize.toNat →
      (∃ stored, s.host.nextAnswer = .ioError stored) ∨
        (∃ data, s.host.nextAnswer = .altered data ∧ data.length ≠ n) →
      ∃ t : State, runOp op s = .next t ∧ t.host.script = [] ∧ t.host.phase = .ended .ioError ∧
        (n ≤ 134217728 → t.pgu = s.pgu) ∧ (op = .devRead → t.host.dev = s.host.dev) ∧
        (∀ x, x < a ∨ a + n ≤ x → t.host.devByte x = s.host.devByte x) ∧
        ∀ stored, op = .devWrite → s.host.nextAnswer = .ioError stored →
          ∀ i < n, t.host.devByte (a + i) = stored.getD i (s.host.devByte (a + i)))

/-- The exit statuses: a mismatch is 2, an I/O failure 1, success 0, and the others are non-zero and not 2 under any
valid parameters (R110). And what the host makes of the STATUS it read: after the configuration any fault is a
configuration error (R110 a); after a block E_MISMATCH makes it read BADOFF, and the other faults are configuration
errors or programming-contract failures as R127 lists them (no CHOOSE is issued there). -/
def Obligations.MismatchHasItsOwnExitStatus : Prop :=
  (∀ (cfg : Config) (e : RunEnd), cfg.Valid →
    (e.exitStatus cfg = 2 ↔ ∃ off, e = .mismatch off) ∧ (e.exitStatus cfg = 0 ↔ e = .success) ∧
    RunEnd.exitStatus cfg .ioError = 1) ∧
  ∀ (h : HostSide) (p : Pgu) (i : Nat), h.lastValue = some p.statusWord →
    (∀ e, p.err = some e → h.judgeConfig.phase = .ended .configError) ∧
    (p.err = none → (h.judgeBlock i).phase = .verifying (i + 1)) ∧
    (p.err = some .mismatch → (h.judgeBlock i).phase = .reporting ∧ (h.judgeBlock i).script = [.regRead 0x0E#5]) ∧
    (∀ e, p.err = some e → e = .range ∨ e = .diskSize ∨ e = .bufCap ∨ e = .startOff ∨ e = .key →
      (h.judgeBlock i).phase = .ended .configError) ∧
    ∀ e, p.err = some e → e = .illCmd ∨ e = .illReg ∨ e = .bufRange ∨ e = .blkSize ∨ e = .index ∨ e = .len →
      (h.judgeBlock i).phase = .ended .contractError

/-- What the host issues for one block: INVERT only in random mode, CHECK only in a run that writes, FILL only in random
mode, each after the range of that block. That a read-only run reads STATUS too is the model's choice (log 6). -/
def Obligations.PassesIssueTheModesCommands : Prop :=
  ∀ i : Nat,
    writeBlock (some .random) i = [.regWrite 0x07#5 (BitVec.ofNat 64 i), .regWrite 0#5 (encode .offset),
      .regWrite 0#5 (encode .zero), .regWrite 0#5 (encode .fill), .devWrite] ∧
    writeBlock (some .zero) i = [.regWrite 0x07#5 (BitVec.ofNat 64 i), .regWrite 0#5 (encode .offset),
      .regWrite 0#5 (encode .zero), .devWrite] ∧
    verifyBlock (some .random) i = [.regWrite 0x07#5 (BitVec.ofNat 64 i), .regWrite 0#5 (encode .offset), .devRead,
      .regWrite 0#5 (encode .invert), .regWrite 0#5 (encode .check), .regRead 0x01#5] ∧
    verifyBlock (some .zero) i = [.regWrite 0x07#5 (BitVec.ofNat 64 i), .regWrite 0#5 (encode .offset), .devRead,
      .regWrite 0#5 (encode .check), .regRead 0x01#5] ∧
    verifyBlock (some .readOnly) i = [.regWrite 0x07#5 (BitVec.ofNat 64 i), .regWrite 0#5 (encode .offset), .devRead,
      .regRead 0x01#5]

/-- The pseudo-instructions and their expansions: the four values of SETKEY are those whose little-endian bytes are the
key (R59). -/
def Obligations.PseudoInstructionsExpand : Prop :=
  (∀ key : List Byte, key.length = 32 → ∃ v0 v1 v2 v3 : Word,
    le64 v0 = (key.drop 0).take 8 ∧ le64 v1 = (key.drop 8).take 8 ∧ le64 v2 = (key.drop 16).take 8 ∧
    le64 v3 = (key.drop 24).take 8 ∧
    ScriptLine.expand (.setkey key) = [.regWrite 0x10#5 v0, .regWrite 0x11#5 v1, .regWrite 0x12#5 v2, .regWrite 0x13#5 v3]) ∧
  ScriptLine.expand .plan = ScriptLine.expand (.mnemonic .choose) ++ ScriptLine.expand (.mnemonic .count) ∧
  (∀ i : Word, ScriptLine.expand (.rangeOf i) =
    ScriptLine.expand (.wr 0x07#5 i) ++ ScriptLine.expand (.mnemonic .offset)) ∧
  ScriptLine.expand .pattern = ScriptLine.expand (.mnemonic .zero) ++ ScriptLine.expand (.mnemonic .fill) ∧
  ScriptLine.expand .verify = ScriptLine.expand (.mnemonic .invert) ++ ScriptLine.expand (.mnemonic .check)

/-- The fault codes as STATUS.ERR shows them: each as listed, so none is 0 and no two agree. -/
def Obligations.FaultCodesAreAsListed : Prop :=
  (ErrCode.illCmd.code = 0x01#8 ∧ ErrCode.illReg.code = 0x02#8 ∧ ErrCode.range.code = 0x03#8 ∧
    ErrCode.bufRange.code = 0x04#8 ∧ ErrCode.diskSize.code = 0x10#8 ∧ ErrCode.blkSize.code = 0x11#8 ∧
    ErrCode.bufCap.code = 0x12#8 ∧ ErrCode.startOff.code = 0x13#8 ∧ ErrCode.index.code = 0x14#8 ∧
    ErrCode.key.code = 0x15#8 ∧ ErrCode.len.code = 0x16#8 ∧ ErrCode.mismatch.code = 0x20#8) ∧
  ∀ e e' : ErrCode, e.code ≠ 0#8 ∧ (e.code = e'.code → e = e')

/-- What the host issues to configure a run, the spec's own inference ("[derived: from `40_block_range.md` rules R64
to R67]"): reset, the sizes, the override if there is one, CHOOSE, the start offset, STARTBLK, COUNT, the key in
random mode, and a read of STATUS. It starts with the reset and picks this order of the free steps: the model's choice
(log 6). -/
def Obligations.ConfigurationSequence : Prop :=
  ∀ h : HostSide, h.request.rejected h.devSize = false →
    h.beginRun.phase = .configured ∧
    h.beginRun.script =
      [.reset, .regWrite 0x03#5 h.devSize, .regWrite 0x04#5 (h.request.sectorSize.zeroExtend 64)] ++
      (match h.request.ovr with
        | some v => [.regWrite 0x05#5 v, .regWrite 0x02#5 1#64]
        | none => []) ++
      [.regWrite 0x00#5 (encode .choose), .regWrite 0x06#5 h.request.startOffset, .regWrite 0x00#5 (encode .startblk),
        .regWrite 0x00#5 (encode .count)] ++
      (if h.request.mode = some .random then ScriptLine.expand (.setkey h.runKey) else []) ++ [.regRead 0x01#5]

/-- The machine under any valid parameters (R6): the buffer's size decides where CHOOSE (R64 check 3), MemRead and MemWrite
(R43, R44) fault, the cipher and the seed decide what FILL and INVERT leave in their range (R82, R83, R84), no byte outside
a stored range changes, and a step of the machine under them runs the queue's line under
them. That `exec` and `step` take the defaults is the model's choice (log 8). -/
def Obligations.ParametersDecideTheMachine : Prop :=
  ∀ (cfg : Config) (s : State), cfg.Valid →
    (∀ op rest, s.host.script = op :: rest → stepUnder cfg s = runOpUnder cfg op (s.popScript rest)) ∧
    (s.clean → s.pgu.diskSize.toNat ≠ 0 → s.pgu.ovrEn = true → 16 ≤ s.pgu.ovr.toNat → s.pgu.ovr.toNat % 16 = 0 →
      runOpUnder cfg (.regWrite 0x00#5 (encode .choose)) s =
        if cfg.bufCap < s.pgu.ovr.toNat then .next { s with pgu := { s.pgu with err := some .bufCap } }
        else .next { s with pgu := { s.pgu with blockSize := s.pgu.ovr } }) ∧
    (s.clean → s.pgu.diskSize.toNat ≠ 0 → s.pgu.ovrEn = false → ∀ sEff raw b : Nat,
      sEff = (if s.pgu.sectorSize.toNat = 0 then 512 else s.pgu.sectorSize.toNat) →
      raw = s.pgu.diskSize.toNat / 1000 / sEff * sEff → b = min (max raw 1048576) 134217728 →
      ∃ v : Word, v.toNat = b ∧ runOpUnder cfg (.regWrite 0x00#5 (encode .choose)) s =
        if b % 16 ≠ 0 then .next { s with pgu := { s.pgu with err := some .blkSize } }
        else if cfg.bufCap < b then .next { s with pgu := { s.pgu with err := some .bufCap } }
        else .next { s with pgu := { s.pgu with blockSize := v } }) ∧
    (∀ b, s.clean → s.pgu.keyw = 0b1111#4 → s.pgu.blockSizeOk cfg → b = s.pgu.blockSize.toNat → b ≠ 0 →
      ∃ m : Mem, runOpUnder cfg (.regWrite 0x00#5 (encode .fill)) s = .next { s with pgu := { s.pgu with buf := m } } ∧
        Pgu.bufRead { s.pgu with buf := m } 0 b =
          cfg.tbc.enc s.pgu.subKey1 s.pgu.subKey2 (le128 cfg.tweakSeed) (s.pgu.bufRead 0 b) ∧
        ∀ x, b ≤ x → Pgu.bufByte { s.pgu with buf := m } x = s.pgu.bufByte x) ∧
    (∀ n, s.clean → s.pgu.keyw = 0b1111#4 → s.pgu.blockSizeOk cfg → n = s.pgu.len.toNat → n ≠ 0 → n % 16 = 0 →
      n ≤ s.pgu.blockSize.toNat →
      ∃ m : Mem, runOpUnder cfg (.regWrite 0x00#5 (encode .invert)) s = .next { s with pgu := { s.pgu with buf := m } } ∧
        Pgu.bufRead { s.pgu with buf := m } 0 n =
          cfg.tbc.dec s.pgu.subKey1 s.pgu.subKey2 (le128 cfg.tweakSeed) (s.pgu.bufRead 0 n) ∧
        ∀ x, n ≤ x → Pgu.bufByte { s.pgu with buf := m } x = s.pgu.bufByte x) ∧
    (∀ a n, s.clean → 1 ≤ n → runOpUnder cfg (.memRead a n) s = .next
      { pgu := if cfg.bufCap < a + n then { s.pgu with err := some .bufRange } else s.pgu
        host := { s.host with
          replies := .bytes (if cfg.bufCap < a + n then zeros n else s.pgu.bufRead a n) :: s.host.replies } }) ∧
    ∀ (a : Nat) (data : List Byte), s.clean → 1 ≤ data.length →
      (cfg.bufCap < a + data.length →
        runOpUnder cfg (.memWrite a data) s = .next { s with pgu := { s.pgu with err := some .bufRange } }) ∧
      (a + data.length ≤ cfg.bufCap → ∃ m : Mem,
        runOpUnder cfg (.memWrite a data) s = .next { s with pgu := { s.pgu with buf := m } } ∧
        (∀ i < data.length, data[i]? = some (Pgu.bufByte { s.pgu with buf := m } (a + i))) ∧
        ∀ x, x < a ∨ a + data.length ≤ x → Pgu.bufByte { s.pgu with buf := m } x = s.pgu.bufByte x)
end

