-- ==== Sys2Proof/Laws/Memory.lean ====
section
/-! SUPPORT. The laws of byte storage: a read after a write, and that a write keeps the canonical form and the bound. -/

namespace Sys2Proof.Machine

theorem get_append (m m' : Mem) (x : Nat) : Mem.get (m ++ m') x = (Mem.get m x).or (Mem.get m' x) := by
  induction m with
  | nil => simp [Mem.get]
  | cons c rest ih =>
    obtain ⟨k, b⟩ := c
    simp only [List.cons_append, Mem.get, ih]
    split <;> simp

theorem get_filter (m : Mem) (q : Nat → Bool) (x : Nat) :
    Mem.get (m.filter fun c => q c.1) x = if q x then Mem.get m x else none := by
  induction m with
  | nil => simp [Mem.get]
  | cons c rest ih =>
    obtain ⟨k, b⟩ := c
    simp only [List.filter_cons]
    by_cases hk : k = x
    · subst hk
      by_cases hq : q k <;> simp [hq, Mem.get, ih]
    · by_cases hq : q k <;> simp [hq, Mem.get, ih, hk]

theorem get_cells (d : List Byte) (a x : Nat) :
    Mem.get (Mem.cells a d) x = if a ≤ x then d[x - a]? else none := by
  induction d generalizing a with
  | nil => simp [Mem.cells, Mem.get]
  | cons b rest ih =>
    simp only [Mem.cells, Mem.get, ih]
    by_cases h : a = x
    · subst h; simp
    · by_cases hl : a ≤ x
      · have : x - a = (x - (a + 1)) + 1 := by omega
        have h' : a + 1 ≤ x := by omega
        simp only [h, hl, h', if_true, if_false]
        rw [this, List.getElem?_cons_succ]
      · have h' : ¬ a + 1 ≤ x := by omega
        simp [h, hl, h']

/-- A read after a write: the written byte inside the write, the old one outside it (spec/20_memory.md R44). -/
theorem get_write (m : Mem) (a x : Nat) (d : List Byte) :
    Mem.get (Mem.write m a d) x = if a ≤ x ∧ x < a + d.length then d[x - a]? else Mem.get m x := by
  unfold Mem.write
  rw [get_append, get_append, get_filter m (fun k => decide (k < a)), get_filter m (fun k => decide (a + d.length ≤ k)),
    get_cells]
  by_cases h1 : x < a
  · have : ¬ a ≤ x := by omega
    have h3 : ¬ a + d.length ≤ x := by omega
    simp [h1, this, h3]
  · by_cases h2 : x < a + d.length
    · have h4 : x - a < d.length := by omega
      have : a ≤ x := by omega
      have h3 : ¬ a + d.length ≤ x := by omega
      simp [h1, this, h2, h3, List.getElem?_eq_getElem h4]
    · have : a ≤ x := by omega
      have h3 : a + d.length ≤ x := by omega
      have h5 : d[x - a]? = none := List.getElem?_eq_none (by omega)
      simp [h1, h2, this, h3, h5]

theorem risingFrom_mono {m : Mem} {lo lo' : Nat} (h : Mem.risingFrom lo m = true) (hl : lo' ≤ lo) :
    Mem.risingFrom lo' m = true := by
  cases m with
  | nil => rfl
  | cons c rest =>
    simp only [Mem.risingFrom, Bool.and_eq_true, decide_eq_true_eq] at h ⊢
    exact ⟨by omega, h.2⟩

theorem risingFrom_filter (m : Mem) (q : Host.Cell → Bool) (lo : Nat) (h : Mem.risingFrom lo m = true) :
    Mem.risingFrom lo (m.filter q) = true := by
  induction m generalizing lo with
  | nil => rfl
  | cons c rest ih =>
    simp only [Mem.risingFrom, Bool.and_eq_true, decide_eq_true_eq] at h
    simp only [List.filter_cons]
    split
    · simp only [Mem.risingFrom, Bool.and_eq_true, decide_eq_true_eq]
      exact ⟨h.1, ih _ h.2⟩
    · exact ih _ (risingFrom_mono h.2 (by omega))

/-- Two rising stores, the first below `mid` and the second from `mid` on, are rising one after the other. -/
theorem risingFrom_append (m m' : Mem) (lo mid : Nat) (h : Mem.risingFrom lo m = true) (hlt : Mem.within m mid = true)
    (h' : Mem.risingFrom mid m' = true) (hle : lo ≤ mid) : Mem.risingFrom lo (m ++ m') = true := by
  induction m generalizing lo with
  | nil => exact risingFrom_mono h' hle
  | cons c rest ih =>
    simp only [Mem.risingFrom, Bool.and_eq_true, decide_eq_true_eq] at h
    simp only [Mem.within, List.all_cons, Bool.and_eq_true, decide_eq_true_eq] at hlt
    simp only [List.cons_append, Mem.risingFrom, Bool.and_eq_true, decide_eq_true_eq]
    exact ⟨h.1, ih _ h.2 hlt.2 (by omega)⟩

theorem risingFrom_cells (d : List Byte) (a : Nat) : Mem.risingFrom a (Mem.cells a d) = true := by
  induction d generalizing a with
  | nil => rfl
  | cons b rest ih => simp [Mem.cells, Mem.risingFrom, ih]

theorem within_mono {m : Mem} {n n' : Nat} (h : Mem.within m n = true) (hn : n ≤ n') : Mem.within m n' = true := by
  simp only [Mem.within, List.all_eq_true, decide_eq_true_eq] at h ⊢
  exact fun c hc => lt_of_lt_of_le (h c hc) hn

theorem within_cells (d : List Byte) (a : Nat) : Mem.within (Mem.cells a d) (a + d.length) = true := by
  induction d generalizing a with
  | nil => rfl
  | cons b rest ih =>
    simp only [Mem.cells, Mem.within, List.all_cons, Bool.and_eq_true, decide_eq_true_eq, List.length_cons]
    exact ⟨by omega, within_mono (ih (a + 1)) (by omega)⟩

theorem within_filter_lt (m : Mem) (a : Nat) : Mem.within (m.filter fun c => decide (c.1 < a)) a = true := by
  simp [Mem.within, List.all_eq_true]

theorem risingFrom_filter_ge (m : Mem) (n lo : Nat) (h : Mem.risingFrom lo m = true) :
    Mem.risingFrom n (m.filter fun c => decide (n ≤ c.1)) = true := by
  induction m generalizing lo with
  | nil => rfl
  | cons c rest ih =>
    simp only [Mem.risingFrom, Bool.and_eq_true, decide_eq_true_eq] at h
    simp only [List.filter_cons]
    split
    · next hc =>
      simp only [decide_eq_true_eq] at hc
      simp only [Mem.risingFrom, Bool.and_eq_true, decide_eq_true_eq]
      exact ⟨hc, risingFrom_filter _ _ _ h.2⟩
    · exact ih _ h.2

/-- Every write keeps the canonical form. -/
theorem write_wf (m : Mem) (a : Nat) (d : List Byte) (h : Mem.wf m = true) : Mem.wf (Mem.write m a d) = true := by
  unfold Mem.wf at h ⊢
  unfold Mem.write
  refine risingFrom_append _ _ 0 (a + d.length) ?_ ?_ (risingFrom_filter_ge m _ 0 h) (by omega)
  · exact risingFrom_append _ _ 0 a (risingFrom_filter _ _ _ h) (within_filter_lt m a) (risingFrom_cells d a) (by omega)
  · simp only [Mem.within, List.all_append, Bool.and_eq_true]
    exact ⟨within_mono (within_filter_lt m a) (by omega), within_cells d a⟩

/-- A write that ends at or below a bound, or writes no byte, keeps the store within it. -/
theorem write_within (m : Mem) (a n : Nat) (d : List Byte) (h : Mem.within m n = true)
    (hd : d ≠ [] → a + d.length ≤ n) : Mem.within (Mem.write m a d) n = true := by
  have hc : Mem.within (Mem.cells a d) n = true := by
    cases d with
    | nil => rfl
    | cons b rest => exact within_mono (within_cells _ a) (hd (List.cons_ne_nil b rest))
  simp only [Mem.within, List.all_eq_true, decide_eq_true_eq] at h
  simp only [Mem.write, Mem.within, List.all_append, Bool.and_eq_true]
  refine ⟨⟨?_, hc⟩, ?_⟩ <;>
    simp only [List.all_eq_true, List.mem_filter, decide_eq_true_eq] <;> exact fun c hc => h c hc.1

/-- The empty store is in canonical form. -/
theorem nil_wf : Mem.wf [] = true := rfl

end Sys2Proof.Machine
end

