-- ==== Sys2Proof/Laws/State.lean ====
section
/-! SUPPORT. One lemma per field per named update of the state, so that no later proof unfolds a record update. -/

namespace Sys2Proof.Machine

/-! ### The unit's unconditional updates -/

@[simp] theorem setBlockSize_err (p : Pgu) (v : Nat) : (p.setBlockSize v).err = p.err := rfl
@[simp] theorem setBlockSize_keyw (p : Pgu) (v : Nat) : (p.setBlockSize v).keyw = p.keyw := rfl
@[simp] theorem setBlockSize_ovrEn (p : Pgu) (v : Nat) : (p.setBlockSize v).ovrEn = p.ovrEn := rfl
@[simp] theorem setBlockSize_diskSize (p : Pgu) (v : Nat) : (p.setBlockSize v).diskSize = p.diskSize := rfl
@[simp] theorem setBlockSize_sectorSize (p : Pgu) (v : Nat) : (p.setBlockSize v).sectorSize = p.sectorSize := rfl
@[simp] theorem setBlockSize_ovr (p : Pgu) (v : Nat) : (p.setBlockSize v).ovr = p.ovr := rfl
@[simp] theorem setBlockSize_startOffset (p : Pgu) (v : Nat) : (p.setBlockSize v).startOffset = p.startOffset := rfl
@[simp] theorem setBlockSize_index (p : Pgu) (v : Nat) : (p.setBlockSize v).index = p.index := rfl
@[simp] theorem setBlockSize_blockSize (p : Pgu) (v : Nat) : (p.setBlockSize v).blockSize = BitVec.ofNat 64 v := rfl
@[simp] theorem setBlockSize_blockCount (p : Pgu) (v : Nat) : (p.setBlockSize v).blockCount = p.blockCount := rfl
@[simp] theorem setBlockSize_start (p : Pgu) (v : Nat) : (p.setBlockSize v).start = p.start := rfl
@[simp] theorem setBlockSize_endOff (p : Pgu) (v : Nat) : (p.setBlockSize v).endOff = p.endOff := rfl
@[simp] theorem setBlockSize_len (p : Pgu) (v : Nat) : (p.setBlockSize v).len = p.len := rfl
@[simp] theorem setBlockSize_startBlock (p : Pgu) (v : Nat) : (p.setBlockSize v).startBlock = p.startBlock := rfl
@[simp] theorem setBlockSize_badOff (p : Pgu) (v : Nat) : (p.setBlockSize v).badOff = p.badOff := rfl
@[simp] theorem setBlockSize_key0 (p : Pgu) (v : Nat) : (p.setBlockSize v).key0 = p.key0 := rfl
@[simp] theorem setBlockSize_key1 (p : Pgu) (v : Nat) : (p.setBlockSize v).key1 = p.key1 := rfl
@[simp] theorem setBlockSize_key2 (p : Pgu) (v : Nat) : (p.setBlockSize v).key2 = p.key2 := rfl
@[simp] theorem setBlockSize_key3 (p : Pgu) (v : Nat) : (p.setBlockSize v).key3 = p.key3 := rfl
@[simp] theorem setBlockSize_buf (p : Pgu) (v : Nat) : (p.setBlockSize v).buf = p.buf := rfl
@[simp] theorem setBlockSize_epoch (p : Pgu) (v : Nat) : (p.setBlockSize v).epoch = p.epoch := rfl

@[simp] theorem setBlockCount_err (p : Pgu) (v : Nat) : (p.setBlockCount v).err = p.err := rfl
@[simp] theorem setBlockCount_keyw (p : Pgu) (v : Nat) : (p.setBlockCount v).keyw = p.keyw := rfl
@[simp] theorem setBlockCount_ovrEn (p : Pgu) (v : Nat) : (p.setBlockCount v).ovrEn = p.ovrEn := rfl
@[simp] theorem setBlockCount_diskSize (p : Pgu) (v : Nat) : (p.setBlockCount v).diskSize = p.diskSize := rfl
@[simp] theorem setBlockCount_sectorSize (p : Pgu) (v : Nat) : (p.setBlockCount v).sectorSize = p.sectorSize := rfl
@[simp] theorem setBlockCount_ovr (p : Pgu) (v : Nat) : (p.setBlockCount v).ovr = p.ovr := rfl
@[simp] theorem setBlockCount_startOffset (p : Pgu) (v : Nat) : (p.setBlockCount v).startOffset = p.startOffset := rfl
@[simp] theorem setBlockCount_index (p : Pgu) (v : Nat) : (p.setBlockCount v).index = p.index := rfl
@[simp] theorem setBlockCount_blockSize (p : Pgu) (v : Nat) : (p.setBlockCount v).blockSize = p.blockSize := rfl
@[simp] theorem setBlockCount_blockCount (p : Pgu) (v : Nat) : (p.setBlockCount v).blockCount = BitVec.ofNat 64 v := rfl
@[simp] theorem setBlockCount_start (p : Pgu) (v : Nat) : (p.setBlockCount v).start = p.start := rfl
@[simp] theorem setBlockCount_endOff (p : Pgu) (v : Nat) : (p.setBlockCount v).endOff = p.endOff := rfl
@[simp] theorem setBlockCount_len (p : Pgu) (v : Nat) : (p.setBlockCount v).len = p.len := rfl
@[simp] theorem setBlockCount_startBlock (p : Pgu) (v : Nat) : (p.setBlockCount v).startBlock = p.startBlock := rfl
@[simp] theorem setBlockCount_badOff (p : Pgu) (v : Nat) : (p.setBlockCount v).badOff = p.badOff := rfl
@[simp] theorem setBlockCount_key0 (p : Pgu) (v : Nat) : (p.setBlockCount v).key0 = p.key0 := rfl
@[simp] theorem setBlockCount_key1 (p : Pgu) (v : Nat) : (p.setBlockCount v).key1 = p.key1 := rfl
@[simp] theorem setBlockCount_key2 (p : Pgu) (v : Nat) : (p.setBlockCount v).key2 = p.key2 := rfl
@[simp] theorem setBlockCount_key3 (p : Pgu) (v : Nat) : (p.setBlockCount v).key3 = p.key3 := rfl
@[simp] theorem setBlockCount_buf (p : Pgu) (v : Nat) : (p.setBlockCount v).buf = p.buf := rfl
@[simp] theorem setBlockCount_epoch (p : Pgu) (v : Nat) : (p.setBlockCount v).epoch = p.epoch := rfl

@[simp] theorem setRange_err (p : Pgu) (a b : Nat) : (p.setRange a b).err = p.err := rfl
@[simp] theorem setRange_keyw (p : Pgu) (a b : Nat) : (p.setRange a b).keyw = p.keyw := rfl
@[simp] theorem setRange_ovrEn (p : Pgu) (a b : Nat) : (p.setRange a b).ovrEn = p.ovrEn := rfl
@[simp] theorem setRange_diskSize (p : Pgu) (a b : Nat) : (p.setRange a b).diskSize = p.diskSize := rfl
@[simp] theorem setRange_sectorSize (p : Pgu) (a b : Nat) : (p.setRange a b).sectorSize = p.sectorSize := rfl
@[simp] theorem setRange_ovr (p : Pgu) (a b : Nat) : (p.setRange a b).ovr = p.ovr := rfl
@[simp] theorem setRange_startOffset (p : Pgu) (a b : Nat) : (p.setRange a b).startOffset = p.startOffset := rfl
@[simp] theorem setRange_index (p : Pgu) (a b : Nat) : (p.setRange a b).index = p.index := rfl
@[simp] theorem setRange_blockSize (p : Pgu) (a b : Nat) : (p.setRange a b).blockSize = p.blockSize := rfl
@[simp] theorem setRange_blockCount (p : Pgu) (a b : Nat) : (p.setRange a b).blockCount = p.blockCount := rfl
@[simp] theorem setRange_start (p : Pgu) (a b : Nat) : (p.setRange a b).start = BitVec.ofNat 64 a := rfl
@[simp] theorem setRange_endOff (p : Pgu) (a b : Nat) : (p.setRange a b).endOff = BitVec.ofNat 64 b := rfl
@[simp] theorem setRange_len (p : Pgu) (a b : Nat) : (p.setRange a b).len = BitVec.ofNat 64 (b - a + 1) := rfl
@[simp] theorem setRange_startBlock (p : Pgu) (a b : Nat) : (p.setRange a b).startBlock = p.startBlock := rfl
@[simp] theorem setRange_badOff (p : Pgu) (a b : Nat) : (p.setRange a b).badOff = p.badOff := rfl
@[simp] theorem setRange_key0 (p : Pgu) (a b : Nat) : (p.setRange a b).key0 = p.key0 := rfl
@[simp] theorem setRange_key1 (p : Pgu) (a b : Nat) : (p.setRange a b).key1 = p.key1 := rfl
@[simp] theorem setRange_key2 (p : Pgu) (a b : Nat) : (p.setRange a b).key2 = p.key2 := rfl
@[simp] theorem setRange_key3 (p : Pgu) (a b : Nat) : (p.setRange a b).key3 = p.key3 := rfl
@[simp] theorem setRange_buf (p : Pgu) (a b : Nat) : (p.setRange a b).buf = p.buf := rfl
@[simp] theorem setRange_epoch (p : Pgu) (a b : Nat) : (p.setRange a b).epoch = p.epoch := rfl

@[simp] theorem setStartBlock_err (p : Pgu) (v : Nat) : (p.setStartBlock v).err = p.err := rfl
@[simp] theorem setStartBlock_keyw (p : Pgu) (v : Nat) : (p.setStartBlock v).keyw = p.keyw := rfl
@[simp] theorem setStartBlock_ovrEn (p : Pgu) (v : Nat) : (p.setStartBlock v).ovrEn = p.ovrEn := rfl
@[simp] theorem setStartBlock_diskSize (p : Pgu) (v : Nat) : (p.setStartBlock v).diskSize = p.diskSize := rfl
@[simp] theorem setStartBlock_sectorSize (p : Pgu) (v : Nat) : (p.setStartBlock v).sectorSize = p.sectorSize := rfl
@[simp] theorem setStartBlock_ovr (p : Pgu) (v : Nat) : (p.setStartBlock v).ovr = p.ovr := rfl
@[simp] theorem setStartBlock_startOffset (p : Pgu) (v : Nat) : (p.setStartBlock v).startOffset = p.startOffset := rfl
@[simp] theorem setStartBlock_index (p : Pgu) (v : Nat) : (p.setStartBlock v).index = p.index := rfl
@[simp] theorem setStartBlock_blockSize (p : Pgu) (v : Nat) : (p.setStartBlock v).blockSize = p.blockSize := rfl
@[simp] theorem setStartBlock_blockCount (p : Pgu) (v : Nat) : (p.setStartBlock v).blockCount = p.blockCount := rfl
@[simp] theorem setStartBlock_start (p : Pgu) (v : Nat) : (p.setStartBlock v).start = p.start := rfl
@[simp] theorem setStartBlock_endOff (p : Pgu) (v : Nat) : (p.setStartBlock v).endOff = p.endOff := rfl
@[simp] theorem setStartBlock_len (p : Pgu) (v : Nat) : (p.setStartBlock v).len = p.len := rfl
@[simp] theorem setStartBlock_startBlock (p : Pgu) (v : Nat) : (p.setStartBlock v).startBlock = BitVec.ofNat 64 v := rfl
@[simp] theorem setStartBlock_badOff (p : Pgu) (v : Nat) : (p.setStartBlock v).badOff = p.badOff := rfl
@[simp] theorem setStartBlock_key0 (p : Pgu) (v : Nat) : (p.setStartBlock v).key0 = p.key0 := rfl
@[simp] theorem setStartBlock_key1 (p : Pgu) (v : Nat) : (p.setStartBlock v).key1 = p.key1 := rfl
@[simp] theorem setStartBlock_key2 (p : Pgu) (v : Nat) : (p.setStartBlock v).key2 = p.key2 := rfl
@[simp] theorem setStartBlock_key3 (p : Pgu) (v : Nat) : (p.setStartBlock v).key3 = p.key3 := rfl
@[simp] theorem setStartBlock_buf (p : Pgu) (v : Nat) : (p.setStartBlock v).buf = p.buf := rfl
@[simp] theorem setStartBlock_epoch (p : Pgu) (v : Nat) : (p.setStartBlock v).epoch = p.epoch := rfl

@[simp] theorem setKey0_err (p : Pgu) (v : Word) : (p.setKey0 v).err = p.err := rfl
@[simp] theorem setKey0_keyw (p : Pgu) (v : Word) : (p.setKey0 v).keyw = p.keyw ||| 0b0001#4 := rfl
@[simp] theorem setKey0_ovrEn (p : Pgu) (v : Word) : (p.setKey0 v).ovrEn = p.ovrEn := rfl
@[simp] theorem setKey0_diskSize (p : Pgu) (v : Word) : (p.setKey0 v).diskSize = p.diskSize := rfl
@[simp] theorem setKey0_sectorSize (p : Pgu) (v : Word) : (p.setKey0 v).sectorSize = p.sectorSize := rfl
@[simp] theorem setKey0_ovr (p : Pgu) (v : Word) : (p.setKey0 v).ovr = p.ovr := rfl
@[simp] theorem setKey0_startOffset (p : Pgu) (v : Word) : (p.setKey0 v).startOffset = p.startOffset := rfl
@[simp] theorem setKey0_index (p : Pgu) (v : Word) : (p.setKey0 v).index = p.index := rfl
@[simp] theorem setKey0_blockSize (p : Pgu) (v : Word) : (p.setKey0 v).blockSize = p.blockSize := rfl
@[simp] theorem setKey0_blockCount (p : Pgu) (v : Word) : (p.setKey0 v).blockCount = p.blockCount := rfl
@[simp] theorem setKey0_start (p : Pgu) (v : Word) : (p.setKey0 v).start = p.start := rfl
@[simp] theorem setKey0_endOff (p : Pgu) (v : Word) : (p.setKey0 v).endOff = p.endOff := rfl
@[simp] theorem setKey0_len (p : Pgu) (v : Word) : (p.setKey0 v).len = p.len := rfl
@[simp] theorem setKey0_startBlock (p : Pgu) (v : Word) : (p.setKey0 v).startBlock = p.startBlock := rfl
@[simp] theorem setKey0_badOff (p : Pgu) (v : Word) : (p.setKey0 v).badOff = p.badOff := rfl
@[simp] theorem setKey0_key0 (p : Pgu) (v : Word) : (p.setKey0 v).key0 = v := rfl
@[simp] theorem setKey0_key1 (p : Pgu) (v : Word) : (p.setKey0 v).key1 = p.key1 := rfl
@[simp] theorem setKey0_key2 (p : Pgu) (v : Word) : (p.setKey0 v).key2 = p.key2 := rfl
@[simp] theorem setKey0_key3 (p : Pgu) (v : Word) : (p.setKey0 v).key3 = p.key3 := rfl
@[simp] theorem setKey0_buf (p : Pgu) (v : Word) : (p.setKey0 v).buf = p.buf := rfl
@[simp] theorem setKey0_epoch (p : Pgu) (v : Word) : (p.setKey0 v).epoch = p.epoch := rfl

@[simp] theorem setKey1_err (p : Pgu) (v : Word) : (p.setKey1 v).err = p.err := rfl
@[simp] theorem setKey1_keyw (p : Pgu) (v : Word) : (p.setKey1 v).keyw = p.keyw ||| 0b0010#4 := rfl
@[simp] theorem setKey1_ovrEn (p : Pgu) (v : Word) : (p.setKey1 v).ovrEn = p.ovrEn := rfl
@[simp] theorem setKey1_diskSize (p : Pgu) (v : Word) : (p.setKey1 v).diskSize = p.diskSize := rfl
@[simp] theorem setKey1_sectorSize (p : Pgu) (v : Word) : (p.setKey1 v).sectorSize = p.sectorSize := rfl
@[simp] theorem setKey1_ovr (p : Pgu) (v : Word) : (p.setKey1 v).ovr = p.ovr := rfl
@[simp] theorem setKey1_startOffset (p : Pgu) (v : Word) : (p.setKey1 v).startOffset = p.startOffset := rfl
@[simp] theorem setKey1_index (p : Pgu) (v : Word) : (p.setKey1 v).index = p.index := rfl
@[simp] theorem setKey1_blockSize (p : Pgu) (v : Word) : (p.setKey1 v).blockSize = p.blockSize := rfl
@[simp] theorem setKey1_blockCount (p : Pgu) (v : Word) : (p.setKey1 v).blockCount = p.blockCount := rfl
@[simp] theorem setKey1_start (p : Pgu) (v : Word) : (p.setKey1 v).start = p.start := rfl
@[simp] theorem setKey1_endOff (p : Pgu) (v : Word) : (p.setKey1 v).endOff = p.endOff := rfl
@[simp] theorem setKey1_len (p : Pgu) (v : Word) : (p.setKey1 v).len = p.len := rfl
@[simp] theorem setKey1_startBlock (p : Pgu) (v : Word) : (p.setKey1 v).startBlock = p.startBlock := rfl
@[simp] theorem setKey1_badOff (p : Pgu) (v : Word) : (p.setKey1 v).badOff = p.badOff := rfl
@[simp] theorem setKey1_key0 (p : Pgu) (v : Word) : (p.setKey1 v).key0 = p.key0 := rfl
@[simp] theorem setKey1_key1 (p : Pgu) (v : Word) : (p.setKey1 v).key1 = v := rfl
@[simp] theorem setKey1_key2 (p : Pgu) (v : Word) : (p.setKey1 v).key2 = p.key2 := rfl
@[simp] theorem setKey1_key3 (p : Pgu) (v : Word) : (p.setKey1 v).key3 = p.key3 := rfl
@[simp] theorem setKey1_buf (p : Pgu) (v : Word) : (p.setKey1 v).buf = p.buf := rfl
@[simp] theorem setKey1_epoch (p : Pgu) (v : Word) : (p.setKey1 v).epoch = p.epoch := rfl

@[simp] theorem setKey2_err (p : Pgu) (v : Word) : (p.setKey2 v).err = p.err := rfl
@[simp] theorem setKey2_keyw (p : Pgu) (v : Word) : (p.setKey2 v).keyw = p.keyw ||| 0b0100#4 := rfl
@[simp] theorem setKey2_ovrEn (p : Pgu) (v : Word) : (p.setKey2 v).ovrEn = p.ovrEn := rfl
@[simp] theorem setKey2_diskSize (p : Pgu) (v : Word) : (p.setKey2 v).diskSize = p.diskSize := rfl
@[simp] theorem setKey2_sectorSize (p : Pgu) (v : Word) : (p.setKey2 v).sectorSize = p.sectorSize := rfl
@[simp] theorem setKey2_ovr (p : Pgu) (v : Word) : (p.setKey2 v).ovr = p.ovr := rfl
@[simp] theorem setKey2_startOffset (p : Pgu) (v : Word) : (p.setKey2 v).startOffset = p.startOffset := rfl
@[simp] theorem setKey2_index (p : Pgu) (v : Word) : (p.setKey2 v).index = p.index := rfl
@[simp] theorem setKey2_blockSize (p : Pgu) (v : Word) : (p.setKey2 v).blockSize = p.blockSize := rfl
@[simp] theorem setKey2_blockCount (p : Pgu) (v : Word) : (p.setKey2 v).blockCount = p.blockCount := rfl
@[simp] theorem setKey2_start (p : Pgu) (v : Word) : (p.setKey2 v).start = p.start := rfl
@[simp] theorem setKey2_endOff (p : Pgu) (v : Word) : (p.setKey2 v).endOff = p.endOff := rfl
@[simp] theorem setKey2_len (p : Pgu) (v : Word) : (p.setKey2 v).len = p.len := rfl
@[simp] theorem setKey2_startBlock (p : Pgu) (v : Word) : (p.setKey2 v).startBlock = p.startBlock := rfl
@[simp] theorem setKey2_badOff (p : Pgu) (v : Word) : (p.setKey2 v).badOff = p.badOff := rfl
@[simp] theorem setKey2_key0 (p : Pgu) (v : Word) : (p.setKey2 v).key0 = p.key0 := rfl
@[simp] theorem setKey2_key1 (p : Pgu) (v : Word) : (p.setKey2 v).key1 = p.key1 := rfl
@[simp] theorem setKey2_key2 (p : Pgu) (v : Word) : (p.setKey2 v).key2 = v := rfl
@[simp] theorem setKey2_key3 (p : Pgu) (v : Word) : (p.setKey2 v).key3 = p.key3 := rfl
@[simp] theorem setKey2_buf (p : Pgu) (v : Word) : (p.setKey2 v).buf = p.buf := rfl
@[simp] theorem setKey2_epoch (p : Pgu) (v : Word) : (p.setKey2 v).epoch = p.epoch := rfl

@[simp] theorem setKey3_err (p : Pgu) (v : Word) : (p.setKey3 v).err = p.err := rfl
@[simp] theorem setKey3_keyw (p : Pgu) (v : Word) : (p.setKey3 v).keyw = p.keyw ||| 0b1000#4 := rfl
@[simp] theorem setKey3_ovrEn (p : Pgu) (v : Word) : (p.setKey3 v).ovrEn = p.ovrEn := rfl
@[simp] theorem setKey3_diskSize (p : Pgu) (v : Word) : (p.setKey3 v).diskSize = p.diskSize := rfl
@[simp] theorem setKey3_sectorSize (p : Pgu) (v : Word) : (p.setKey3 v).sectorSize = p.sectorSize := rfl
@[simp] theorem setKey3_ovr (p : Pgu) (v : Word) : (p.setKey3 v).ovr = p.ovr := rfl
@[simp] theorem setKey3_startOffset (p : Pgu) (v : Word) : (p.setKey3 v).startOffset = p.startOffset := rfl
@[simp] theorem setKey3_index (p : Pgu) (v : Word) : (p.setKey3 v).index = p.index := rfl
@[simp] theorem setKey3_blockSize (p : Pgu) (v : Word) : (p.setKey3 v).blockSize = p.blockSize := rfl
@[simp] theorem setKey3_blockCount (p : Pgu) (v : Word) : (p.setKey3 v).blockCount = p.blockCount := rfl
@[simp] theorem setKey3_start (p : Pgu) (v : Word) : (p.setKey3 v).start = p.start := rfl
@[simp] theorem setKey3_endOff (p : Pgu) (v : Word) : (p.setKey3 v).endOff = p.endOff := rfl
@[simp] theorem setKey3_len (p : Pgu) (v : Word) : (p.setKey3 v).len = p.len := rfl
@[simp] theorem setKey3_startBlock (p : Pgu) (v : Word) : (p.setKey3 v).startBlock = p.startBlock := rfl
@[simp] theorem setKey3_badOff (p : Pgu) (v : Word) : (p.setKey3 v).badOff = p.badOff := rfl
@[simp] theorem setKey3_key0 (p : Pgu) (v : Word) : (p.setKey3 v).key0 = p.key0 := rfl
@[simp] theorem setKey3_key1 (p : Pgu) (v : Word) : (p.setKey3 v).key1 = p.key1 := rfl
@[simp] theorem setKey3_key2 (p : Pgu) (v : Word) : (p.setKey3 v).key2 = p.key2 := rfl
@[simp] theorem setKey3_key3 (p : Pgu) (v : Word) : (p.setKey3 v).key3 = v := rfl
@[simp] theorem setKey3_buf (p : Pgu) (v : Word) : (p.setKey3 v).buf = p.buf := rfl
@[simp] theorem setKey3_epoch (p : Pgu) (v : Word) : (p.setKey3 v).epoch = p.epoch := rfl

@[simp] theorem bufWrite_err (p : Pgu) (a : Nat) (d : List Byte) : (p.bufWrite a d).err = p.err := rfl
@[simp] theorem bufWrite_keyw (p : Pgu) (a : Nat) (d : List Byte) : (p.bufWrite a d).keyw = p.keyw := rfl
@[simp] theorem bufWrite_ovrEn (p : Pgu) (a : Nat) (d : List Byte) : (p.bufWrite a d).ovrEn = p.ovrEn := rfl
@[simp] theorem bufWrite_diskSize (p : Pgu) (a : Nat) (d : List Byte) : (p.bufWrite a d).diskSize = p.diskSize := rfl
@[simp] theorem bufWrite_sectorSize (p : Pgu) (a : Nat) (d : List Byte) : (p.bufWrite a d).sectorSize = p.sectorSize := rfl
@[simp] theorem bufWrite_ovr (p : Pgu) (a : Nat) (d : List Byte) : (p.bufWrite a d).ovr = p.ovr := rfl
@[simp] theorem bufWrite_startOffset (p : Pgu) (a : Nat) (d : List Byte) : (p.bufWrite a d).startOffset = p.startOffset := rfl
@[simp] theorem bufWrite_index (p : Pgu) (a : Nat) (d : List Byte) : (p.bufWrite a d).index = p.index := rfl
@[simp] theorem bufWrite_blockSize (p : Pgu) (a : Nat) (d : List Byte) : (p.bufWrite a d).blockSize = p.blockSize := rfl
@[simp] theorem bufWrite_blockCount (p : Pgu) (a : Nat) (d : List Byte) : (p.bufWrite a d).blockCount = p.blockCount := rfl
@[simp] theorem bufWrite_start (p : Pgu) (a : Nat) (d : List Byte) : (p.bufWrite a d).start = p.start := rfl
@[simp] theorem bufWrite_endOff (p : Pgu) (a : Nat) (d : List Byte) : (p.bufWrite a d).endOff = p.endOff := rfl
@[simp] theorem bufWrite_len (p : Pgu) (a : Nat) (d : List Byte) : (p.bufWrite a d).len = p.len := rfl
@[simp] theorem bufWrite_startBlock (p : Pgu) (a : Nat) (d : List Byte) : (p.bufWrite a d).startBlock = p.startBlock := rfl
@[simp] theorem bufWrite_badOff (p : Pgu) (a : Nat) (d : List Byte) : (p.bufWrite a d).badOff = p.badOff := rfl
@[simp] theorem bufWrite_key0 (p : Pgu) (a : Nat) (d : List Byte) : (p.bufWrite a d).key0 = p.key0 := rfl
@[simp] theorem bufWrite_key1 (p : Pgu) (a : Nat) (d : List Byte) : (p.bufWrite a d).key1 = p.key1 := rfl
@[simp] theorem bufWrite_key2 (p : Pgu) (a : Nat) (d : List Byte) : (p.bufWrite a d).key2 = p.key2 := rfl
@[simp] theorem bufWrite_key3 (p : Pgu) (a : Nat) (d : List Byte) : (p.bufWrite a d).key3 = p.key3 := rfl
@[simp] theorem bufWrite_buf (p : Pgu) (a : Nat) (d : List Byte) : (p.bufWrite a d).buf = Mem.write p.buf a d := rfl
@[simp] theorem bufWrite_epoch (p : Pgu) (a : Nat) (d : List Byte) : (p.bufWrite a d).epoch = p.epoch := rfl

/-! ### Taking a fault: every field but ERR (and BADOFF for a mismatch) is unchanged -/

@[simp] theorem raise_keyw (p : Pgu) (e : ErrCode) : (p.raise e).keyw = p.keyw := by unfold Pgu.raise; split <;> rfl
@[simp] theorem raise_ovrEn (p : Pgu) (e : ErrCode) : (p.raise e).ovrEn = p.ovrEn := by unfold Pgu.raise; split <;> rfl
@[simp] theorem raise_diskSize (p : Pgu) (e : ErrCode) : (p.raise e).diskSize = p.diskSize := by unfold Pgu.raise; split <;> rfl
@[simp] theorem raise_sectorSize (p : Pgu) (e : ErrCode) : (p.raise e).sectorSize = p.sectorSize := by unfold Pgu.raise; split <;> rfl
@[simp] theorem raise_ovr (p : Pgu) (e : ErrCode) : (p.raise e).ovr = p.ovr := by unfold Pgu.raise; split <;> rfl
@[simp] theorem raise_startOffset (p : Pgu) (e : ErrCode) : (p.raise e).startOffset = p.startOffset := by unfold Pgu.raise; split <;> rfl
@[simp] theorem raise_index (p : Pgu) (e : ErrCode) : (p.raise e).index = p.index := by unfold Pgu.raise; split <;> rfl
@[simp] theorem raise_blockSize (p : Pgu) (e : ErrCode) : (p.raise e).blockSize = p.blockSize := by unfold Pgu.raise; split <;> rfl
@[simp] theorem raise_blockCount (p : Pgu) (e : ErrCode) : (p.raise e).blockCount = p.blockCount := by unfold Pgu.raise; split <;> rfl
@[simp] theorem raise_start (p : Pgu) (e : ErrCode) : (p.raise e).start = p.start := by unfold Pgu.raise; split <;> rfl
@[simp] theorem raise_endOff (p : Pgu) (e : ErrCode) : (p.raise e).endOff = p.endOff := by unfold Pgu.raise; split <;> rfl
@[simp] theorem raise_len (p : Pgu) (e : ErrCode) : (p.raise e).len = p.len := by unfold Pgu.raise; split <;> rfl
@[simp] theorem raise_startBlock (p : Pgu) (e : ErrCode) : (p.raise e).startBlock = p.startBlock := by unfold Pgu.raise; split <;> rfl
@[simp] theorem raise_badOff (p : Pgu) (e : ErrCode) : (p.raise e).badOff = p.badOff := by unfold Pgu.raise; split <;> rfl
@[simp] theorem raise_key0 (p : Pgu) (e : ErrCode) : (p.raise e).key0 = p.key0 := by unfold Pgu.raise; split <;> rfl
@[simp] theorem raise_key1 (p : Pgu) (e : ErrCode) : (p.raise e).key1 = p.key1 := by unfold Pgu.raise; split <;> rfl
@[simp] theorem raise_key2 (p : Pgu) (e : ErrCode) : (p.raise e).key2 = p.key2 := by unfold Pgu.raise; split <;> rfl
@[simp] theorem raise_key3 (p : Pgu) (e : ErrCode) : (p.raise e).key3 = p.key3 := by unfold Pgu.raise; split <;> rfl
@[simp] theorem raise_buf (p : Pgu) (e : ErrCode) : (p.raise e).buf = p.buf := by unfold Pgu.raise; split <;> rfl
@[simp] theorem raise_epoch (p : Pgu) (e : ErrCode) : (p.raise e).epoch = p.epoch := by unfold Pgu.raise; split <;> rfl

@[simp] theorem raiseMismatch_keyw (p : Pgu) (o : Nat) : (p.raiseMismatch o).keyw = p.keyw := by unfold Pgu.raiseMismatch; split <;> rfl
@[simp] theorem raiseMismatch_ovrEn (p : Pgu) (o : Nat) : (p.raiseMismatch o).ovrEn = p.ovrEn := by unfold Pgu.raiseMismatch; split <;> rfl
@[simp] theorem raiseMismatch_diskSize (p : Pgu) (o : Nat) : (p.raiseMismatch o).diskSize = p.diskSize := by unfold Pgu.raiseMismatch; split <;> rfl
@[simp] theorem raiseMismatch_sectorSize (p : Pgu) (o : Nat) : (p.raiseMismatch o).sectorSize = p.sectorSize := by unfold Pgu.raiseMismatch; split <;> rfl
@[simp] theorem raiseMismatch_ovr (p : Pgu) (o : Nat) : (p.raiseMismatch o).ovr = p.ovr := by unfold Pgu.raiseMismatch; split <;> rfl
@[simp] theorem raiseMismatch_startOffset (p : Pgu) (o : Nat) : (p.raiseMismatch o).startOffset = p.startOffset := by unfold Pgu.raiseMismatch; split <;> rfl
@[simp] theorem raiseMismatch_index (p : Pgu) (o : Nat) : (p.raiseMismatch o).index = p.index := by unfold Pgu.raiseMismatch; split <;> rfl
@[simp] theorem raiseMismatch_blockSize (p : Pgu) (o : Nat) : (p.raiseMismatch o).blockSize = p.blockSize := by unfold Pgu.raiseMismatch; split <;> rfl
@[simp] theorem raiseMismatch_blockCount (p : Pgu) (o : Nat) : (p.raiseMismatch o).blockCount = p.blockCount := by unfold Pgu.raiseMismatch; split <;> rfl
@[simp] theorem raiseMismatch_start (p : Pgu) (o : Nat) : (p.raiseMismatch o).start = p.start := by unfold Pgu.raiseMismatch; split <;> rfl
@[simp] theorem raiseMismatch_endOff (p : Pgu) (o : Nat) : (p.raiseMismatch o).endOff = p.endOff := by unfold Pgu.raiseMismatch; split <;> rfl
@[simp] theorem raiseMismatch_len (p : Pgu) (o : Nat) : (p.raiseMismatch o).len = p.len := by unfold Pgu.raiseMismatch; split <;> rfl
@[simp] theorem raiseMismatch_startBlock (p : Pgu) (o : Nat) : (p.raiseMismatch o).startBlock = p.startBlock := by unfold Pgu.raiseMismatch; split <;> rfl
@[simp] theorem raiseMismatch_key0 (p : Pgu) (o : Nat) : (p.raiseMismatch o).key0 = p.key0 := by unfold Pgu.raiseMismatch; split <;> rfl
@[simp] theorem raiseMismatch_key1 (p : Pgu) (o : Nat) : (p.raiseMismatch o).key1 = p.key1 := by unfold Pgu.raiseMismatch; split <;> rfl
@[simp] theorem raiseMismatch_key2 (p : Pgu) (o : Nat) : (p.raiseMismatch o).key2 = p.key2 := by unfold Pgu.raiseMismatch; split <;> rfl
@[simp] theorem raiseMismatch_key3 (p : Pgu) (o : Nat) : (p.raiseMismatch o).key3 = p.key3 := by unfold Pgu.raiseMismatch; split <;> rfl
@[simp] theorem raiseMismatch_buf (p : Pgu) (o : Nat) : (p.raiseMismatch o).buf = p.buf := by unfold Pgu.raiseMismatch; split <;> rfl
@[simp] theorem raiseMismatch_epoch (p : Pgu) (o : Nat) : (p.raiseMismatch o).epoch = p.epoch := by unfold Pgu.raiseMismatch; split <;> rfl

/-! ### The host's updates -/

@[simp] theorem receive_script (h : HostSide) (r : Reply) : (h.receive r).script = h.script := rfl
@[simp] theorem receive_replies (h : HostSide) (r : Reply) : (h.receive r).replies = r :: h.replies := rfl
@[simp] theorem receive_dev (h : HostSide) (r : Reply) : (h.receive r).dev = h.dev := rfl
@[simp] theorem receive_devSize (h : HostSide) (r : Reply) : (h.receive r).devSize = h.devSize := rfl
@[simp] theorem receive_answers (h : HostSide) (r : Reply) : (h.receive r).answers = h.answers := rfl
@[simp] theorem receive_request (h : HostSide) (r : Reply) : (h.receive r).request = h.request := rfl
@[simp] theorem receive_phase (h : HostSide) (r : Reply) : (h.receive r).phase = h.phase := rfl
@[simp] theorem receive_startBlock (h : HostSide) (r : Reply) : (h.receive r).startBlock = h.startBlock := rfl
@[simp] theorem receive_blockCount (h : HostSide) (r : Reply) : (h.receive r).blockCount = h.blockCount := rfl
@[simp] theorem receive_keysDrawn (h : HostSide) (r : Reply) : (h.receive r).keysDrawn = h.keysDrawn := rfl

@[simp] theorem devStore_script (h : HostSide) (x : Nat) (d : List Byte) : (h.devStore x d).script = h.script := rfl
@[simp] theorem devStore_replies (h : HostSide) (x : Nat) (d : List Byte) : (h.devStore x d).replies = h.replies := rfl
@[simp] theorem devStore_dev (h : HostSide) (x : Nat) (d : List Byte) : (h.devStore x d).dev = Mem.write h.dev x d := rfl
@[simp] theorem devStore_devSize (h : HostSide) (x : Nat) (d : List Byte) : (h.devStore x d).devSize = h.devSize := rfl
@[simp] theorem devStore_answers (h : HostSide) (x : Nat) (d : List Byte) : (h.devStore x d).answers = h.answers := rfl
@[simp] theorem devStore_request (h : HostSide) (x : Nat) (d : List Byte) : (h.devStore x d).request = h.request := rfl
@[simp] theorem devStore_phase (h : HostSide) (x : Nat) (d : List Byte) : (h.devStore x d).phase = h.phase := rfl
@[simp] theorem devStore_startBlock (h : HostSide) (x : Nat) (d : List Byte) : (h.devStore x d).startBlock = h.startBlock := rfl
@[simp] theorem devStore_blockCount (h : HostSide) (x : Nat) (d : List Byte) : (h.devStore x d).blockCount = h.blockCount := rfl
@[simp] theorem devStore_keysDrawn (h : HostSide) (x : Nat) (d : List Byte) : (h.devStore x d).keysDrawn = h.keysDrawn := rfl

@[simp] theorem dropAnswer_script (h : HostSide) : (h.dropAnswer).script = h.script := rfl
@[simp] theorem dropAnswer_replies (h : HostSide) : (h.dropAnswer).replies = h.replies := rfl
@[simp] theorem dropAnswer_dev (h : HostSide) : (h.dropAnswer).dev = h.dev := rfl
@[simp] theorem dropAnswer_devSize (h : HostSide) : (h.dropAnswer).devSize = h.devSize := rfl
@[simp] theorem dropAnswer_answers (h : HostSide) : (h.dropAnswer).answers = h.answers.tail := rfl
@[simp] theorem dropAnswer_request (h : HostSide) : (h.dropAnswer).request = h.request := rfl
@[simp] theorem dropAnswer_phase (h : HostSide) : (h.dropAnswer).phase = h.phase := rfl
@[simp] theorem dropAnswer_startBlock (h : HostSide) : (h.dropAnswer).startBlock = h.startBlock := rfl
@[simp] theorem dropAnswer_blockCount (h : HostSide) : (h.dropAnswer).blockCount = h.blockCount := rfl
@[simp] theorem dropAnswer_keysDrawn (h : HostSide) : (h.dropAnswer).keysDrawn = h.keysDrawn := rfl

@[simp] theorem ioFailed_script (h : HostSide) : (h.ioFailed).script = [] := rfl
@[simp] theorem ioFailed_replies (h : HostSide) : (h.ioFailed).replies = h.replies := rfl
@[simp] theorem ioFailed_dev (h : HostSide) : (h.ioFailed).dev = h.dev := rfl
@[simp] theorem ioFailed_devSize (h : HostSide) : (h.ioFailed).devSize = h.devSize := rfl
@[simp] theorem ioFailed_answers (h : HostSide) : (h.ioFailed).answers = h.answers := rfl
@[simp] theorem ioFailed_request (h : HostSide) : (h.ioFailed).request = h.request := rfl
@[simp] theorem ioFailed_phase (h : HostSide) : (h.ioFailed).phase = .ended .ioError := rfl
@[simp] theorem ioFailed_startBlock (h : HostSide) : (h.ioFailed).startBlock = h.startBlock := rfl
@[simp] theorem ioFailed_blockCount (h : HostSide) : (h.ioFailed).blockCount = h.blockCount := rfl
@[simp] theorem ioFailed_keysDrawn (h : HostSide) : (h.ioFailed).keysDrawn = h.keysDrawn := rfl

@[simp] theorem issue_script (h : HostSide) (ops : List HostOp) (ph : Phase) : (h.issue ops ph).script = ops := rfl
@[simp] theorem issue_replies (h : HostSide) (ops : List HostOp) (ph : Phase) : (h.issue ops ph).replies = h.replies := rfl
@[simp] theorem issue_dev (h : HostSide) (ops : List HostOp) (ph : Phase) : (h.issue ops ph).dev = h.dev := rfl
@[simp] theorem issue_devSize (h : HostSide) (ops : List HostOp) (ph : Phase) : (h.issue ops ph).devSize = h.devSize := rfl
@[simp] theorem issue_answers (h : HostSide) (ops : List HostOp) (ph : Phase) : (h.issue ops ph).answers = h.answers := rfl
@[simp] theorem issue_request (h : HostSide) (ops : List HostOp) (ph : Phase) : (h.issue ops ph).request = h.request := rfl
@[simp] theorem issue_phase (h : HostSide) (ops : List HostOp) (ph : Phase) : (h.issue ops ph).phase = ph := rfl
@[simp] theorem issue_startBlock (h : HostSide) (ops : List HostOp) (ph : Phase) : (h.issue ops ph).startBlock = h.startBlock := rfl
@[simp] theorem issue_blockCount (h : HostSide) (ops : List HostOp) (ph : Phase) : (h.issue ops ph).blockCount = h.blockCount := rfl
@[simp] theorem issue_keysDrawn (h : HostSide) (ops : List HostOp) (ph : Phase) : (h.issue ops ph).keysDrawn = h.keysDrawn := rfl

@[simp] theorem finish_script (h : HostSide) (e : RunEnd) : (h.finish e).script = h.script := rfl
@[simp] theorem finish_replies (h : HostSide) (e : RunEnd) : (h.finish e).replies = h.replies := rfl
@[simp] theorem finish_dev (h : HostSide) (e : RunEnd) : (h.finish e).dev = h.dev := rfl
@[simp] theorem finish_devSize (h : HostSide) (e : RunEnd) : (h.finish e).devSize = h.devSize := rfl
@[simp] theorem finish_answers (h : HostSide) (e : RunEnd) : (h.finish e).answers = h.answers := rfl
@[simp] theorem finish_request (h : HostSide) (e : RunEnd) : (h.finish e).request = h.request := rfl
@[simp] theorem finish_phase (h : HostSide) (e : RunEnd) : (h.finish e).phase = .ended e := rfl
@[simp] theorem finish_startBlock (h : HostSide) (e : RunEnd) : (h.finish e).startBlock = h.startBlock := rfl
@[simp] theorem finish_blockCount (h : HostSide) (e : RunEnd) : (h.finish e).blockCount = h.blockCount := rfl
@[simp] theorem finish_keysDrawn (h : HostSide) (e : RunEnd) : (h.finish e).keysDrawn = h.keysDrawn := rfl

/-! ### The whole state -/

@[simp] theorem mapPgu_pgu (s : State) (f : Pgu → Pgu) : (s.mapPgu f).pgu = f s.pgu := rfl
@[simp] theorem mapPgu_host (s : State) (f : Pgu → Pgu) : (s.mapPgu f).host = s.host := rfl
@[simp] theorem mapHost_pgu (s : State) (f : HostSide → HostSide) : (s.mapHost f).pgu = s.pgu := rfl
@[simp] theorem mapHost_host (s : State) (f : HostSide → HostSide) : (s.mapHost f).host = f s.host := rfl
@[simp] theorem popScript_pgu (s : State) (rest : List HostOp) : (s.popScript rest).pgu = s.pgu := rfl
@[simp] theorem popScript_script (s : State) (rest : List HostOp) : (s.popScript rest).host.script = rest := rfl
@[simp] theorem popScript_replies (s : State) (rest : List HostOp) : (s.popScript rest).host.replies = s.host.replies := rfl
@[simp] theorem popScript_dev (s : State) (rest : List HostOp) : (s.popScript rest).host.dev = s.host.dev := rfl
@[simp] theorem popScript_devSize (s : State) (rest : List HostOp) : (s.popScript rest).host.devSize = s.host.devSize := rfl
@[simp] theorem popScript_answers (s : State) (rest : List HostOp) : (s.popScript rest).host.answers = s.host.answers := rfl
@[simp] theorem popScript_phase (s : State) (rest : List HostOp) : (s.popScript rest).host.phase = s.host.phase := rfl

end Sys2Proof.Machine
end

