-- ==== Sys2Proof/Laws/Ops.lean ====
section
/-! SUPPORT. One lemma per shared operation, saying everything it can do: raising a fault, running a command, reading
and writing BUF and registers, and one step. -/

namespace Sys2Proof.Machine

theorem faulted_eq (p : Pgu) : p.faulted = true ↔ p.err ≠ none := by
  unfold Pgu.faulted; cases p.err <;> simp

theorem not_faulted_eq (p : Pgu) : p.faulted = false ↔ p.err = none := by
  unfold Pgu.faulted; cases p.err <;> simp

/-! ### Taking a fault (spec/60_exceptions.md R122, R124) -/

/-- In a not-faulted unit ERR takes the code's name and nothing else changes. -/
theorem raise_of_clean (p : Pgu) (e : ErrCode) (h : p.err = none) : p.raise e = { p with err := some e } := by
  unfold Pgu.raise; rw [if_neg (by simp [Pgu.faulted, h])]

/-- In a faulted unit nothing changes: the first fault stays. -/
theorem raise_of_faulted (p : Pgu) (e : ErrCode) (h : p.err ≠ none) : p.raise e = p := by
  unfold Pgu.raise; rw [if_pos ((faulted_eq p).2 h)]

theorem raise_err (p : Pgu) (e : ErrCode) : (p.raise e).err = p.err.or (some e) := by
  unfold Pgu.raise Pgu.faulted; cases hp : p.err <;> simp [hp]

theorem raiseMismatch_of_clean (p : Pgu) (o : Nat) (h : p.err = none) :
    p.raiseMismatch o = { p with err := some .mismatch, badOff := BitVec.ofNat 64 o } := by
  unfold Pgu.raiseMismatch; rw [if_neg (by simp [Pgu.faulted, h])]

theorem raiseMismatch_of_faulted (p : Pgu) (o : Nat) (h : p.err ≠ none) : p.raiseMismatch o = p := by
  unfold Pgu.raiseMismatch; rw [if_pos ((faulted_eq p).2 h)]

/-! ### Running a command (R123) -/

/-- A command always completes, on the unit alone. -/
theorem runCommand_eq (f : Pgu → Pgu) (s : State) :
    runCommand f s = .next { s with pgu := if s.pgu.faulted then s.pgu else f s.pgu } := rfl

theorem runCommand_of_clean (f : Pgu → Pgu) (s : State) (h : s.pgu.err = none) :
    runCommand f s = .next { s with pgu := f s.pgu } := by
  rw [runCommand_eq, if_neg (by simp [Pgu.faulted, h])]

theorem runCommand_of_faulted (f : Pgu → Pgu) (s : State) (h : s.pgu.err ≠ none) : runCommand f s = .next s := by
  rw [runCommand_eq, if_pos ((faulted_eq _).2 h)]

/-- The commands are those of the default parameters. -/
theorem exec_eq (i : Instr) (s : State) : exec i s = execUnder Config.standard i s := by cases i <;> rfl

/-- A command under any parameters always completes, on the unit alone. -/
theorem execUnder_eq (cfg : Config) (i : Instr) (s : State) :
    execUnder cfg i s = .next { s with pgu := if s.pgu.faulted then s.pgu else commandEffect cfg i s.pgu } := rfl

/-! ### BUF -/

@[simp] theorem zeros_length (n : Nat) : (zeros n).length = n := by simp [zeros]

@[simp] theorem bufRead_length (p : Pgu) (a n : Nat) : (p.bufRead a n).length = n := by simp [Pgu.bufRead]

/-- Byte `i` of a buffer read. -/
theorem bufRead_getElem? (p : Pgu) (a n i : Nat) :
    (p.bufRead a n)[i]? = if i < n then some (p.bufByte (a + i)) else none := by
  unfold Pgu.bufRead
  by_cases h : i < n
  · simp [h]
  · simp [h]

/-- A byte of BUF after a write: the written one inside, the old one outside. -/
theorem bufByte_bufWrite (p : Pgu) (a x : Nat) (d : List Byte) :
    (p.bufWrite a d).bufByte x = if h : a ≤ x ∧ x < a + d.length then d[x - a]'(by omega) else p.bufByte x := by
  unfold Pgu.bufByte
  rw [bufWrite_buf, bufWrite_epoch, get_write]
  by_cases h : a ≤ x ∧ x < a + d.length
  · have hx : x - a < d.length := by omega
    simp [h, List.getElem?_eq_getElem hx]
  · simp [h]

/-- Reading back exactly what was written. -/
theorem bufRead_bufWrite (p : Pgu) (a : Nat) (d : List Byte) : (p.bufWrite a d).bufRead a d.length = d := by
  apply List.ext_getElem?
  intro i
  rw [bufRead_getElem?]
  by_cases h : i < d.length
  · have : a ≤ a + i ∧ a + i < a + d.length := by omega
    rw [if_pos h, bufByte_bufWrite, dif_pos this, List.getElem?_eq_getElem h]
    simp
  · rw [if_neg h, List.getElem?_eq_none (by omega)]

/-- BUF reads as before where the two units hold the same bytes under the same reset. -/
theorem bufByte_congr {p q : Pgu} (hb : p.buf = q.buf) (he : p.epoch = q.epoch) (x : Nat) : p.bufByte x = q.bufByte x := by
  unfold Pgu.bufByte; rw [hb, he]

@[simp] theorem bufByte_raise (p : Pgu) (e : ErrCode) (x : Nat) : (p.raise e).bufByte x = p.bufByte x :=
  bufByte_congr (raise_buf p e) (raise_epoch p e) x

/-! ### CHECK's scan (spec/41_pattern_engine.md R91) -/

/-- No byte is non-zero exactly when the scan finds none. -/
theorem firstNonZero_none (l : List Byte) : firstNonZero l = none ↔ ∀ b ∈ l, b = 0#8 := by
  induction l with
  | nil => simp [firstNonZero]
  | cons b rest ih =>
    unfold firstNonZero
    by_cases h : b = 0#8
    · simp [h, ih]
    · simp [h]

/-- The scan's answer is the least index of a non-zero byte. -/
theorem firstNonZero_some (l : List Byte) (i : Nat) :
    firstNonZero l = some i ↔ (∃ b, l[i]? = some b ∧ b ≠ 0#8) ∧ ∀ j < i, l[j]? = some 0#8 := by
  induction l generalizing i with
  | nil => simp [firstNonZero]
  | cons b rest ih =>
    unfold firstNonZero
    by_cases h : b = 0#8
    · subst h
      cases i with
      | zero => simp
      | succ k =>
        rw [if_pos rfl, Option.map_eq_some_iff]
        constructor
        · rintro ⟨j, hj, hjk⟩
          obtain rfl : j = k := by omega
          obtain ⟨hb, hz⟩ := (ih j).1 hj
          refine ⟨by simpa using hb, fun m hm => ?_⟩
          cases m with
          | zero => rfl
          | succ m => simpa using hz m (by omega)
        · rintro ⟨hb, hz⟩
          refine ⟨k, (ih k).2 ⟨by simpa using hb, fun m hm => ?_⟩, rfl⟩
          simpa using hz (m + 1) (by omega)
    · rw [if_neg h]
      cases i with
      | zero => simp [h]
      | succ k =>
        constructor
        · intro hk; simp at hk
        · rintro ⟨-, hz⟩; exact absurd (by simpa using hz 0 (by omega)) h

/-! ### Register writes (spec/20_memory.md R41) -/

/-- A stored register never changes a result register, BUF, BADOFF or the reset count. -/
theorem storeReg_keeps (p : Pgu) (r : RegName) (v : Word) :
    (p.storeReg r v).blockSize = p.blockSize ∧ (p.storeReg r v).blockCount = p.blockCount ∧
    (p.storeReg r v).start = p.start ∧ (p.storeReg r v).endOff = p.endOff ∧ (p.storeReg r v).len = p.len ∧
    (p.storeReg r v).startBlock = p.startBlock ∧ (p.storeReg r v).badOff = p.badOff ∧
    (p.storeReg r v).buf = p.buf ∧ (p.storeReg r v).epoch = p.epoch := by
  unfold Pgu.storeReg
  cases r <;> try simp
  split <;> simp

/-- While faulted a register write changes nothing (R123). -/
theorem writeReg_of_faulted (p : Pgu) (r : RegName) (v : Word) (h : p.err ≠ none) : p.writeReg r v = p := by
  unfold Pgu.writeReg; rw [if_pos ((faulted_eq p).2 h)]

/-- A transfer of a byte or more is out of range exactly past the buffer's end (R43, R44). -/
theorem outOfRange_iff (cfg : Config) (a n : Nat) (h : n ≠ 0) : outOfRange cfg a n = true ↔ cfg.bufCap < a + n := by
  simp [outOfRange, h]

/-- A transfer that ends within the buffer is in range, whatever its length. -/
theorem outOfRange_of_le (cfg : Config) (a n : Nat) (h : a + n ≤ cfg.bufCap) : outOfRange cfg a n = false := by
  simp [outOfRange, show ¬ cfg.bufCap < a + n by omega]

/-- While faulted a buffer write changes nothing (R123). -/
theorem memWrite_of_faulted (cfg : Config) (p : Pgu) (a : Nat) (d : List Byte) (h : p.err ≠ none) :
    p.memWrite cfg a d = p := by
  unfold Pgu.memWrite; rw [if_pos ((faulted_eq p).2 h)]

/-! ### The device (spec/50_host_pass_driver.md R104) -/

/-- What moves in a transfer that does not fail has the length asked for. -/
theorem moved_length (x : DevAnswer) (asked data : List Byte) (h : x.moved asked = some data) :
    data.length = asked.length := by
  unfold DevAnswer.moved at h
  split at h
  · cases h; rfl
  · split at h <;> cases h; assumption
  · cases h

/-- A write that fails leaves no more bytes than it was asked to store. -/
theorem leftBehind_length (x : DevAnswer) (n : Nat) : (x.leftBehind n).length ≤ n := by
  unfold DevAnswer.leftBehind; split <;> simp

/-! ### One step -/

/-- With an empty queue the host decides; the unit does not move (spec/70_reset_and_hazards.md R137). -/
theorem step_of_empty (s : State) (h : s.host.script = []) : step s = .next (s.mapHost HostSide.nextMove) := by
  unfold step stepWith; rw [h]

/-- With a line at the head of the queue the step is that line, the queue one shorter (spec/00_scope.md R11). -/
theorem step_of_line (s : State) (op : HostOp) (rest : List HostOp) (h : s.host.script = op :: rest) :
    step s = runOp op (s.popScript rest) := by
  unfold step stepWith; rw [h]

/-- Every queue line runs as it does under the default parameters. -/
theorem runOp_eq (op : HostOp) (s : State) : runOp op s = runOpUnder Config.standard op s := by
  have hx : exec = execUnder Config.standard := by funext i t; exact exec_eq i t
  unfold runOp runOpUnder; rw [hx]

/-- The step is that of the default parameters (spec/00_scope.md R6). -/
theorem step_eq (s : State) : step s = stepUnder Config.standard s := by
  have hx : runOp = runOpUnder Config.standard := by funext op t; exact runOp_eq op t
  unfold step stepUnder; rw [hx]

/-- What the host decides never touches the device, its length or its answers. -/
theorem nextMove_keeps (h : HostSide) :
    h.nextMove.dev = h.dev ∧ h.nextMove.devSize = h.devSize ∧ h.nextMove.answers = h.answers ∧
    h.nextMove.replies = h.replies ∧ h.nextMove.request = h.request := by
  unfold HostSide.nextMove
  split
  · simp
  · unfold HostSide.beginRun; split <;> simp
  · unfold HostSide.judgeConfig; split <;> (try split) <;> simp
  · unfold HostSide.beginPasses; split <;> simp
  · unfold HostSide.writePass; split <;> simp
  · unfold HostSide.verifyPass; split <;> simp
  · unfold HostSide.judgeBlock; split <;> (try split) <;> (try split) <;> simp
  · unfold HostSide.report; split <;> simp
  · simp

end Sys2Proof.Machine
end

