-- ==== Sys2Proof/Laws/PerInstr.lean ====
section
/-! SUPPORT. The per-instruction family ZeroField: the word of every command has bits 63:8 zero and its own opcode in
bits 7:0 (spec/30_encoding.md R52, R54), and every command is well-formed (R53). -/

namespace Sys2Proof.Laws.ZeroField

/-- Bits 63:8 of the command's word are zero, bits 7:0 are its opcode, and the command is well-formed. -/
def Statement (i : Instr) : Prop := zeroFieldOf (encode i) = 0 ∧ opcField (encode i) = opcodeOf i ∧ i.wf = true

theorem choose : Statement .choose := ⟨rfl, rfl, rfl⟩
theorem count : Statement .count := ⟨rfl, rfl, rfl⟩
theorem offset : Statement .offset := ⟨rfl, rfl, rfl⟩
theorem startblk : Statement .startblk := ⟨rfl, rfl, rfl⟩
theorem zero : Statement .zero := ⟨rfl, rfl, rfl⟩
theorem fill : Statement .fill := ⟨rfl, rfl, rfl⟩
theorem invert : Statement .invert := ⟨rfl, rfl, rfl⟩
theorem check : Statement .check := ⟨rfl, rfl, rfl⟩

end Sys2Proof.Laws.ZeroField
end

