-- ==== Sys2Proof/Tests/Slice0.lean ====
section
/-! SUPPORT. Tests against the worked vectors of spec/95_test_vectors.md (V<n>) and the rules named, and a witness for the
hypotheses of every statement. Expected results are the spec's; cipher bytes are its general-knowledge vectors. -/

open Sys2Proof Sys2Proof.Machine

namespace Sys2Proof.Tests

/-- A unit with nothing in it and the key KA. -/
def blank : Pgu := { Pgu.reset 0 with key0 := 0, key1 := 0, key2 := 0, key3 := 0 }

/-- The machine around a unit, with an idle host. -/
def unit (p : Pgu) : State := { pgu := p, host := HostSide.reset }

/-- The next state of an outcome, if it is one. -/
def nextOf : Host.Outcome State Fault Refusal → Option State
  | .next s => some s
  | .fault _ | .refused _ => none

/-- The unit of the next state. -/
def pguOf (o : Host.Outcome State Fault Refusal) : Option Pgu := (nextOf o).map State.pgu

/-- A field of the unit after a command. -/
def field {α : Type} (f : Pgu → α) (i : Instr) (p : Pgu) : Option α := (pguOf (exec i (unit p))).map f

/-- A field of the unit after a line. -/
def lineField {α : Type} (f : Pgu → α) (op : HostOp) (p : Pgu) : Option α := (pguOf (runOp op (unit p))).map f

/-- What the host received from a line. -/
def lineReply (op : HostOp) (p : Pgu) : Option (List Reply) := (nextOf (runOp op (unit p))).map fun s => s.host.replies

/-- A device of 100 bytes and the override 48 (V21). -/
def plan48 : Pgu := { blank with diskSize := 100, ovr := 48, ovrEn := true }

/-- The same with BLOCK_SIZE 48 (V21). -/
def block48 : Pgu := { plan48 with blockSize := 48 }

/-- Key KB (spec/95_test_vectors.md, keys used), BLOCK_SIZE = LEN = 32, and the given bytes in the buffer. -/
def keyed32 (data : List Byte) : Pgu :=
  { blank with
    key0 := 0x0706050403020100, key1 := 0x0f0e0d0c0b0a0908, key2 := 0x1716151413121110, key3 := 0x1f1e1d1c1b1a1918
    keyw := 0b1111, blockSize := 32, len := 32, endOff := 31, buf := Mem.cells 0 data }

/-- The first 32 bytes of the pattern of KB (V32). -/
def patternKB : List Byte :=
  [0xf0, 0x71, 0xa2, 0xb4, 0x02, 0xc1, 0x05, 0xea, 0x37, 0x02, 0x41, 0x33, 0xe2, 0x4d, 0x6e, 0xf6,
   0x21, 0x2e, 0x8c, 0xc0, 0x17, 0x5e, 0x1b, 0x6b, 0x32, 0x65, 0x7d, 0x54, 0xf1, 0x59, 0xda, 0xf6]

/-- The identity as the cipher pair, BUF_CAP 64, EXIT_CONFIG 1: valid parameters for the witnesses. -/
def plain : Config :=
  { bufCap := 64, tbc := { enc := fun _ _ _ s => s, dec := fun _ _ _ s => s }, tweakSeed := 0, exitConfig := 1 }

/-! ## WellFormed: each check refuses an ill-formed term -/

theorem test_wf_refuses_empty_read : (HostOp.memRead 0 0).wf = false := by decide

theorem test_wf_refuses_empty_write : (HostOp.memWrite 3 []).wf = false := by decide

theorem test_wf_refuses_short_key : (ScriptLine.setkey [0x01, 0x02]).wf = false := by decide

theorem test_wf_refuses_empty_buffer_lines : (ScriptLine.bufwr 0 []).wf = false ∧ (ScriptLine.bufrd 0 0).wf = false := by
  decide

theorem test_wf_accepts : (HostOp.memRead 0 1).wf = true ∧ (ScriptLine.setkey (zeros 32)).wf = true := by decide

/-- A transfer of no bytes runs and moves none (log 12). -/
theorem test_empty_read_runs : lineReply (.memRead 0 0) blank = some [.bytes []] ∧
    lineField Pgu.statusWord (.memRead 134217728 0) blank = some 0#64 := by decide

/-! ## Decoding: the words of spec/30_encoding.md R54, R55, R61 and V50, written out -/

theorem test_decode_choose : decodeWord 0x0000000000000001#64 = .ok .choose := rfl
theorem test_decode_count : decodeWord 0x0000000000000002#64 = .ok .count := rfl
theorem test_decode_offset : decodeWord 0x0000000000000003#64 = .ok .offset := rfl
theorem test_decode_startblk : decodeWord 0x0000000000000004#64 = .ok .startblk := rfl
theorem test_decode_zero : decodeWord 0x0000000000000010#64 = .ok .zero := rfl
theorem test_decode_fill : decodeWord 0x0000000000000011#64 = .ok .fill := rfl
theorem test_decode_invert : decodeWord 0x0000000000000012#64 = .ok .invert := rfl
theorem test_decode_check : decodeWord 0x0000000000000013#64 = .ok .check := rfl

/-- CHECK bit by bit: bits 4, 1 and 0 of OPC. -/
theorem test_decode_check_bits : decodeWord (0#56 ++ 0b00010011#8) = .ok .check := rfl

/-- Opcodes beside the eight (V50). -/
theorem test_decode_no_opcode :
    decodeWord 0x00#64 = .error .opcode ∧ decodeWord 0x05#64 = .error .opcode ∧ decodeWord 0x0f#64 = .error .opcode ∧
      decodeWord 0x14#64 = .error .opcode ∧ decodeWord 0xff#64 = .error .opcode := ⟨rfl, rfl, rfl, rfl, rfl⟩

/-- A bit of the ZERO field set, the lowest and the highest (V50). -/
theorem test_decode_zero_field :
    decodeWord 0x0000000000000103#64 = .error .zeroField ∧ decodeWord 0x8000000000000011#64 = .error .zeroField :=
  ⟨rfl, rfl⟩

theorem test_decode_bytes : decodeBytes [0x12, 0, 0, 0, 0, 0, 0, 0, 0xaa] = .ok (.invert, [0xaa]) := rfl

theorem test_decode_bytes_short : decodeBytes [0x12, 0, 0, 0, 0, 0, 0] = .error .short := rfl

theorem test_table_word : decodeTableWord 64 0x11 = some .fill ∧ decodeTableWord 64 0x111 = none := ⟨rfl, rfl⟩

/-- A command word placed at reset is the first thing step runs. -/
theorem test_fetch_word : step (State.reset.withFetchWord 64 0x13) = exec .check State.reset := rfl

/-- `WR CTRL, 1` and a mnemonic as pairs (P1). -/
theorem test_pairs : HostOp.pair (wrLine .ctrl 1) = some (0x02#5, 1#64) ∧ HostOp.pair (cmdLine .choose) = some (0x00#5, 1#64) :=
  ⟨rfl, rfl⟩

/-- SETKEY of KB gives the four values of its row. -/
theorem test_setkey : setKeyLines ((List.range 32).map (BitVec.ofNat 8)) =
    [.regWrite 0x10#5 0x0706050403020100#64, .regWrite 0x11#5 0x0f0e0d0c0b0a0908#64,
      .regWrite 0x12#5 0x1716151413121110#64, .regWrite 0x13#5 0x1f1e1d1c1b1a1918#64] := by decide

/-! ## The commands -/

/-- V20: OVERRIDE = 48. -/
theorem test_choose_override : field Pgu.blockSize .choose plan48 = some 48#64 := by decide

/-- V13: the raw size 64,022,920 is no multiple of 16. -/
theorem test_choose_sector_520 :
    field Pgu.statusWord .choose { blank with diskSize := 64023257088, sectorSize := 520 } = some 0x11#64 := by decide

/-- V21: BLOCK_COUNT = 3. -/
theorem test_count : field Pgu.blockCount .count block48 = some 3#64 := by decide

/-- V24: the largest device. -/
theorem test_count_largest :
    field Pgu.blockCount .count { block48 with diskSize := 0xFFFFFFFFFFFFFFFF } = some 384307168202282326#64 := by decide

/-- V21: RANGE 2 gives (96, 99, LEN 4). -/
theorem test_offset :
    field (fun p => (p.start, p.endOff, p.len)) .offset { block48 with index := 2 } = some (96#64, 99#64, 4#64) := by decide

/-- V24: the sum is wider than 64 bits. -/
theorem test_offset_wide_sum :
    field (fun p => (p.start, p.endOff, p.len)) .offset
      { block48 with diskSize := 0xFFFFFFFFFFFFFFFF, index := 384307168202282325 } =
      some (18446744073709551600#64, 18446744073709551614#64, 15#64) := by decide

/-- V26: START_OFFSET 5 MiB + 12,345. -/
theorem test_startblk :
    field Pgu.startBlock .startblk { blank with diskSize := 10485760, blockSize := 1048576, startOffset := 5255225 } =
      some 5#64 := by decide

/-- V26: START_OFFSET at the end of the device. -/
theorem test_startblk_past_end :
    field Pgu.statusWord .startblk { blank with diskSize := 10485760, blockSize := 1048576, startOffset := 10485760 } =
      some 0x13#64 := by decide

/-- V42: bytes below BLOCK_SIZE become zero, bytes from it on stay. -/
theorem test_zero : field (fun p => p.bufRead 46 4) .zero { block48 with buf := Mem.cells 0 (List.replicate 64 0xee) } =
    some [0x00, 0x00, 0xee, 0xee] := by decide +kernel

/-- V40: ZERO from reset. -/
theorem test_zero_no_block : field Pgu.statusWord .zero blank = some 0x11#64 := by decide

/-- V32. -/
theorem test_fill : field (fun p => p.bufRead 0 32) .fill (keyed32 (zeros 32)) = some patternKB := by decide +kernel

/-- V40: three of the four key registers written. -/
theorem test_fill_no_key : field Pgu.statusWord .fill { block48 with keyw := 0b0111 } = some 0x715#64 := by decide

/-- V37: byte 5 of the pattern read back as 0xc0. -/
theorem test_invert : field (fun p => p.bufRead 0 32) .invert (keyed32 (patternKB.set 5 0xc0)) =
    some ([0xb0, 0xe7, 0x10, 0x9e, 0xb6, 0xba, 0x31, 0x72, 0x8f, 0x59, 0x85, 0x4d, 0xca, 0xa8, 0x90, 0x93] ++ zeros 16) := by
  decide +kernel

/-- V40: LEN = 4 is no multiple of 16. -/
theorem test_invert_short : field Pgu.statusWord .invert { block48 with keyw := 0b1111, len := 4 } = some 0xf16#64 := by
  decide

/-- V36, third row: the first non-zero byte. -/
theorem test_check : field (fun p => (p.statusWord, p.badOff)) .check
    { blank with start := 96, len := 4, buf := Mem.cells 0 [0x01, 0x00, 0x5a, 0x00] } = some (0x20#64, 96#64) := by decide

/-- V36, fourth row: the byte at LEN is not read. -/
theorem test_check_at_len : field (fun p => (p.statusWord, p.badOff)) .check
    { blank with start := 96, len := 4, buf := Mem.cells 0 [0x00, 0x00, 0x00, 0x00, 0xee] } = some (0#64, 0#64) := by decide

/-! ## The primitives -/

/-- V51: KEYW bit 2. -/
theorem test_write_key : lineField Pgu.statusWord (.regWrite 0x12#5 5#64) blank = some 0x400#64 := by decide

/-- V51: a write to BLOCK_SIZE. -/
theorem test_write_read_only : lineField (fun p => (p.statusWord, p.blockSize)) (.regWrite 0x08#5 32#64) blank =
    some (0x02#64, 0#64) := by decide

/-- V51: SECTOR_SIZE 0x100000000. -/
theorem test_write_sector_range : lineField (fun p => (p.statusWord, p.sectorSize)) (.regWrite 0x04#5 0x100000000#64) blank =
    some (0x03#64, 0#32) := by decide

/-- V20: `WR CTRL, 3` stores 1. -/
theorem test_write_ctrl : lineField (fun p => p.regView .ctrl) (.regWrite 0x02#5 3#64) blank = some 1#64 := by decide

/-- V51: a reserved number. -/
theorem test_read_reserved : lineReply (.regRead 0x1f#5) blank = some [.value 0#64] ∧
    lineField Pgu.statusWord (.regRead 0x0f#5) blank = some 0x02#64 := by decide

/-- V51: KEY registers read 0. -/
theorem test_read_key : lineReply (.regRead 0x12#5) (keyed32 []) = some [.value 0#64] := by decide

/-- V52: two bytes at the last index. -/
theorem test_read_past_end : lineReply (.memRead 134217727 2) blank = some [.bytes [0, 0]] ∧
    lineField Pgu.statusWord (.memRead 134217727 2) blank = some 0x04#64 := by decide

/-- V52: the last byte. -/
theorem test_write_last_byte : lineField (fun p => p.bufRead 134217727 1) (.memWrite 134217727 [0xaa]) blank =
    some [0xaa] := by decide

/-- V52: one byte past the end. -/
theorem test_write_past_end : lineField (fun p => (p.statusWord, p.buf)) (.memWrite 134217728 [0x00]) blank =
    some (0x04#64, []) := by decide

/-- V53: a write in a faulted unit. -/
theorem test_faulted_write : lineField (fun p => (p.statusWord, p.keyw)) (.regWrite 0x10#5 1#64)
    { blank with err := some .blkSize } = some (0x11#64, 0#4) := by decide

/-- V54: reset clears the fault. -/
theorem test_reset : lineField Pgu.statusWord .reset { keyed32 [] with err := some .mismatch, badOff := 5 } = some 0#64 := by
  decide

/-! ## The cipher, from spec/42_xts_aes128.md and V35 -/

theorem test_aes_fips_197 :
    aesEnc (Block.ofBytes ((List.range 16).map (BitVec.ofNat 8))) (Block.ofBytes ((List.range 16).map fun i => BitVec.ofNat 8 (17 * i))) =
      Block.ofBytes [0x69, 0xc4, 0xe0, 0xd8, 0x6a, 0x7b, 0x04, 0x30, 0xd8, 0xcd, 0xb7, 0x80, 0x70, 0xb4, 0xc5, 0x5a] := by
  decide +kernel

theorem test_prefix_law : xtsEnc (keyed32 []).subKey1 (keyed32 []).subKey2 (zeros 16) (zeros 16) = patternKB.take 16 := by
  decide +kernel

/-! ## The device and the pass driver -/

/-- One block of P2's shape: LEN = 4 at START = 2 of an 8-byte device. -/
def small : State :=
  { pgu := { blank with start := 2, len := 4, endOff := 5, buf := Mem.cells 0 [1, 2, 3, 4] }
    host := { HostSide.reset with devSize := 8, dev := Mem.cells 0 [9, 9, 9, 9, 9, 9, 9, 9] } }

theorem test_devwr : (nextOf (runOp .devWrite small)).map (fun s => s.host.devBytes 0 8) = some [9, 9, 1, 2, 3, 4, 9, 9] := by
  decide

theorem test_devrd : (nextOf (runOp .devRead small)).map (fun s => s.pgu.bufRead 0 4) = some [9, 9, 9, 9] := by decide

/-- DEVWR and DEVRD right after reset, where LEN is 0: the run goes on and nothing moves (log 12). -/
theorem test_empty_device_transfers :
    (nextOf (runOp .devWrite (unit blank))).map (fun s => (s.host.phase, s.host.dev)) = some (.idle, []) ∧
    (nextOf (runOp .devRead (unit blank))).map (fun s => (s.pgu.statusWord, s.pgu.buf)) = some (0#64, []) := by decide

/-- A write that fails after two bytes: the range holds what the answer says, nothing else moves, the run is over. -/
theorem test_devwr_fails : (nextOf (runOp .devWrite { small with host := { small.host with answers := [.ioError [7, 7]] } })).map
    (fun s => (s.host.devBytes 0 8, s.host.phase)) = some ([9, 9, 7, 7, 9, 9, 9, 9], .ended .ioError) := by decide

/-- `WR DISK_SIZE, 100` as one little-endian store to the word of register 3, and RD, BUFWR, BUFRD lines (R60, R42). -/
theorem test_bus_access :
    busAccess { pguBase := 0x1000, bufBase := 0x10000 } (.regWrite 0x03#5 100#64) =
      some (.store 0x1018 [0x64, 0, 0, 0, 0, 0, 0, 0]) ∧
    busAccess { pguBase := 0x1000, bufBase := 0x10000 } (.regRead 0x01#5) = some (.load 0x1008) ∧
    busAccess { pguBase := 0x1000, bufBase := 0x10000 } (.memWrite 3 [0x11, 0x22]) = some (.writeBytes 0x10003 [0x11, 0x22]) ∧
    busAccess { pguBase := 0x1000, bufBase := 0x10000 } (.memRead 2 5) = some (.readBytes 0x10002 5) := by decide

/-- E_KEY in a pass is a configuration error, E_LEN a programming-contract failure (R127). -/
theorem test_judge_classes :
    (HostSide.judgeBlock { HostSide.reset with replies := [.value 0x715#64] } 3).phase = .ended .configError ∧
    (HostSide.judgeBlock { HostSide.reset with replies := [.value 0xf16#64] } 3).phase = .ended .contractError := by decide

/-- Under BUF_CAP 64 an override of 80 does not fit (R6, R64). -/
theorem test_small_buffer : (pguOf (execUnder plain .choose (unit { plan48 with ovr := 80 }))).map Pgu.statusWord =
    some 0x12#64 := by decide

/-- Under BUF_CAP 64 the size CHOOSE computes does not fit either (R6, R64). -/
theorem test_small_buffer_computed : (pguOf (execUnder plain .choose (unit { blank with diskSize := 100 }))).map Pgu.statusWord =
    some 0x12#64 := by decide

/-- Both write modes at once are a configuration error (R101). -/
theorem test_both_modes :
    (HostSide.beginRun { HostSide.reset with request := { Request.readScan with wantRandom := true, wantZero := true } }).phase =
      .ended .configError := by decide

/-- The key KB as text, with a dash: dashes stripped, two digits a byte (R113). -/
theorem test_key_text :
    decodeKey ['0', '0', '0', '1', '-', '0', '2', '0', '3', '0', '4', '0', '5', '0', '6', '0', '7', '0', '8', '0', '9', '0', 'a',
      '0', 'b', '0', 'c', '0', 'd', '0', 'e', '0', 'f', '1', '0', '1', '1', '1', '2', '1', '3', '1', '4', '1', '5', '1', '6', '1',
      '7', '1', '8', '1', '9', '1', 'a', '1', 'b', '1', 'c', '1', 'd', '1', 'e', '1', 'f'] =
      some ((List.range 32).map (BitVec.ofNat 8)) := by decide

/-- A key of one byte, and one with a letter that is no digit, are configuration errors (R113). -/
theorem test_bad_key_text : Request.badKey { Request.readScan with key := some ['a', 'b'] } = true ∧
    Request.badKey { Request.readScan with key := some (List.replicate 64 'g') } = true := by decide

/-- A mismatch makes the host read BADOFF (R110 c). -/
theorem test_judge_mismatch :
    (HostSide.judgeBlock { HostSide.reset with replies := [.value 0xf20#64] } 3).script = [.regRead 0x0e#5] := by decide

/-! ## Memory -/

theorem test_reset_memory : Mem.wf State.reset.pgu.buf = true ∧ Mem.wf State.reset.host.dev = true := by decide

theorem test_memory_not_rising : Mem.wf [(3, 0x01#8), (3, 0x02#8)] = false := by decide

/-! ## Witnesses: states and operands that meet the hypotheses of each statement, a clause at a time -/

theorem plain_valid : plain.Valid := by
  refine ⟨by decide, by decide, ?_, by decide, by decide⟩
  constructor <;> intros <;> rfl

theorem witness_DecodingExamples : State.reset.clean := rfl

theorem witness_DecodeEncodeAgreeOnBytes :
    decodeBytes [0x01, 0, 0, 0, 0, 0, 0, 0] = .ok (.choose, []) ∧ decodeBytes (encodeBytes .check) = .ok (.check, []) := by
  exact ⟨rfl, rfl⟩

theorem witness_IllegalWordOnlyRaises : State.reset.clean ∧ ∀ i, 0x103#64 ≠ encode i := by
  refine ⟨rfl, fun i => ?_⟩; cases i <;> decide

theorem witness_StepRunsTheDecodedCommand :
    (State.reset.withFetchWord 64 0x11).host.script = .regWrite 0x00#5 0x11#64 :: [] ∧ decodeWord 0x11#64 = .ok .fill ∧
      Instr.wf .fill = true := ⟨rfl, rfl, rfl⟩

theorem witness_UnitWaitsForTheHost : State.reset.host.script = [] ∧ State.reset.host.phase = .idle ∧
    ∃ e, (unit blank).host.finish .success = { HostSide.reset with phase := .ended e } := ⟨rfl, rfl, .success, rfl⟩

/-- A DEVWR from reset, where LEN is 0; and a device transfer that ends at the device's end. -/
theorem witness_EveryPrimitiveCompletes : ∃ (s : State) (rest : List HostOp), s.host.script = .devWrite :: rest ∧
    (s.pgu.len.toNat = 0 ∨ s.pgu.start.toNat + s.pgu.len.toNat ≤ s.host.devSize.toNat) ∧ (4#64).toNat + (4#64).toNat ≤ (8#64).toNat :=
  ⟨{ State.reset with host := { HostSide.reset with script := [.devWrite] } }, _, rfl, by decide, by decide⟩

/-- No device size; an override too small, one no multiple of 16, one above the buffer, one at its size (V20). -/
theorem witness_ChooseStoresTheBlockSize : (unit blank).clean ∧ blank.diskSize.toNat = 0 ∧ plan48.diskSize.toNat ≠ 0 ∧
    plan48.ovrEn = true ∧
    (let v := (8#64).toNat; v < 16 ∨ v % 16 ≠ 0) ∧
    (let v := (40#64).toNat; v < 16 ∨ v % 16 ≠ 0) ∧
    (let v := (134217744#64).toNat; ¬(v < 16 ∨ v % 16 ≠ 0) ∧ 134217728 < v) ∧
    (let v := (134217728#64).toNat; ¬(v < 16 ∨ v % 16 ≠ 0) ∧ v ≤ 134217728) ∧
    (let v := (16#64).toNat; ¬(v < 16 ∨ v % 16 ≠ 0) ∧ v ≤ 134217728) := by
  exact ⟨rfl, by decide, by decide, rfl, by decide, by decide, by decide, by decide, by decide⟩

/-- The computed sizes of V13 and of the lower clamp (V15). -/
theorem witness_ChooseStoresTheBlockSize_computed : { blank with diskSize := 1 }.ovrEn = false ∧
    min (max (64023257088 / 1000 / 520 * 520) 1048576) 134217728 % 16 ≠ 0 ∧
    min (max (1 / 1000 / 512 * 512) 1048576) 134217728 % 16 = 0 := by decide

theorem witness_CountStoresTheCeiling : (unit blank).clean ∧ blank.diskSize.toNat = 0 ∧ plan48.diskSize.toNat ≠ 0 ∧
    plan48.blockSize.toNat = 0 ∧ block48.diskSize.toNat ≠ 0 ∧ block48.blockSize.toNat ≠ 0 := by
  exact ⟨rfl, by decide, by decide, by decide, by decide, by decide⟩

/-- No block size; the product at the device's size (V22) and beyond 64 bits (V25); the last block (V21). -/
theorem witness_OffsetStoresTheRange : (unit block48).clean ∧ plan48.blockSize.toNat = 0 ∧
    (32 ≠ 0 ∧ (96#64).toNat ≤ (3#64).toNat * (32#64).toNat) ∧
    (0xFFFFFFFFFFFFFFFF#64).toNat ≤ (0x8000000000000000#64).toNat * (134217728#64).toNat ∧
    (block48.blockSize.toNat ≠ 0 ∧ (2#64).toNat * block48.blockSize.toNat < block48.diskSize.toNat) := by
  exact ⟨rfl, by decide, by decide, by decide, by decide⟩

theorem witness_StartblkStoresTheFloor : (unit block48).clean ∧ plan48.blockSize.toNat = 0 ∧
    block48.blockSize.toNat ≠ 0 ∧ block48.diskSize.toNat ≤ (100#64).toNat ∧ (99#64).toNat < block48.diskSize.toNat := by
  exact ⟨rfl, by decide, by decide, by decide, by decide⟩

/-- Each of the four, in a state where it stores its result. -/
theorem witness_BlockRangeFrame : (∃ t, exec .choose (unit plan48) = .next t) ∧ (∃ t, exec .count (unit block48) = .next t) ∧
    (∃ t, exec .offset (unit block48) = .next t) ∧ ∃ t, exec .startblk (unit block48) = .next t :=
  ⟨⟨_, rfl⟩, ⟨_, rfl⟩, ⟨_, rfl⟩, ⟨_, rfl⟩⟩

/-- 100 bytes in blocks of 48: the first, an inner and the last index (V21), and the least device. -/
theorem witness_BlocksTileTheDevice : 0 < 100 ∧ 0 < 48 ∧ 3 = countFn 100 48 ∧ 0 < 3 ∧ 0 + 1 < 3 ∧ 2 + 1 = 3 ∧
    1 = countFn 1 1 ∧ 0 + 1 = 1 := by decide

theorem witness_ValidIndicesEndAtTheCount : offsetFn 100 40 3 = none ∧ countFn 100 40 ≤ 3 ∧ offsetFn 100 40 2 ≠ none := by
  decide

theorem witness_BlockLengthsSumToTheDevice : 0 < 100 ∧ 0 < 48 ∧ countFn 100 48 = 3 := by decide

/-- An override, and the clauses on the size CHOOSE computes: above the lower clamp (V11), at the upper one (V14). -/
theorem witness_ChosenSizeIsValid :
    (∃ t, exec .choose (unit plan48) = .next t ∧ t.clean ∧ t.pgu.blockSize.toNat = 48) ∧
    (∃ t, exec .choose (unit { blank with diskSize := 64023257088 }) = .next t ∧ t.clean ∧
      t.pgu.blockSize.toNat = 64023040) ∧
    134217728 < 4000787030016 / 1000 / 4096 * 4096 :=
  ⟨⟨_, rfl, rfl, by decide⟩, ⟨_, rfl, rfl, by decide⟩, by decide⟩

theorem witness_StartBlockIsAValidIndex : (unit { block48 with startOffset := 99 }).clean ∧
    ∃ t, exec .startblk (unit { block48 with startOffset := 99 }) = .next t ∧ t.clean := ⟨rfl, _, rfl, rfl⟩

theorem witness_ZeroClearsTheBlock : (unit block48).clean ∧ blank.blockSize.toNat = 0 ∧ block48.blockSize.toNat ≠ 0 := by
  exact ⟨rfl, by decide, by decide⟩

theorem witness_FillEncryptsTheBlock : (unit (keyed32 [])).clean ∧ blank.blockSize.toNat = 0 ∧
    (block48.blockSize.toNat ≠ 0 ∧ block48.keyw ≠ 0b1111#4) ∧
    ((keyed32 []).blockSize.toNat ≠ 0 ∧ (keyed32 []).keyw = 0b1111#4) := by
  exact ⟨rfl, by decide, by decide, by decide⟩

/-- The lengths 0, 4, 48 above BLOCK_SIZE 32 (V40) and 32. -/
theorem witness_InvertDecryptsTheLength : (unit (keyed32 [])).clean ∧ blank.blockSize.toNat = 0 ∧
    (block48.blockSize.toNat ≠ 0 ∧ block48.keyw ≠ 0b1111#4) ∧
    ((keyed32 []).blockSize.toNat ≠ 0 ∧ (keyed32 []).keyw = 0b1111#4) ∧
    (let n := (0#64).toNat; n = 0 ∨ n % 16 ≠ 0 ∨ (keyed32 []).blockSize.toNat < n) ∧
    (let n := (4#64).toNat; n = 0 ∨ n % 16 ≠ 0 ∨ (keyed32 []).blockSize.toNat < n) ∧
    (let n := (48#64).toNat; n = 0 ∨ n % 16 ≠ 0 ∨ (keyed32 []).blockSize.toNat < n) ∧
    (let n := (keyed32 []).len.toNat; ¬(n = 0 ∨ n % 16 ≠ 0 ∨ (keyed32 []).blockSize.toNat < n)) := by
  exact ⟨rfl, by decide, by decide, by decide, by decide, by decide, by decide, by decide⟩

/-- The end of the largest device (V24), so the sum is at its bound; a block of zeros; a non-zero byte at LEN - 1. -/
theorem witness_CheckFindsTheFirstNonZeroByte : (unit blank).clean ∧ blank.len.toNat = 0 ∧
    (18446744073709551600#64).toNat + (16#64).toNat ≤ 2 ^ 64 ∧
    (∀ i < 4, Pgu.bufByte { blank with buf := Mem.cells 0 (zeros 4) } i = 0#8) ∧
    Pgu.bufByte { blank with buf := Mem.cells 0 [0, 0, 0, 7] } 3 ≠ 0#8 ∧
    ∀ i < 3, Pgu.bufByte { blank with buf := Mem.cells 0 [0, 0, 0, 7] } i = 0#8 := by
  exact ⟨rfl, by decide, by decide, by decide, by decide, by decide⟩

theorem witness_EngineFrame : (∃ t, exec .zero (unit block48) = .next t) ∧ (∃ t, exec .fill (unit (keyed32 [])) = .next t) ∧
    (∃ t, exec .invert (unit (keyed32 [])) = .next t) ∧ ∃ t, exec .check (unit block48) = .next t :=
  ⟨⟨_, rfl⟩, ⟨_, rfl⟩, ⟨_, rfl⟩, ⟨_, rfl⟩⟩

/-- Two units with one key, BLOCK_SIZE 16 and 64, the least and the whole buffer. -/
theorem witness_PatternDependsOnKeyAndSizeOnly : plain.Valid ∧ (keyed32 []).err = none ∧ (keyed32 []).keyw = 0b1111#4 ∧
    Pgu.keyBytes { keyed32 [] with blockSize := 16 } = Pgu.keyBytes { keyed32 [] with blockSize := 64 } ∧
    Pgu.blockSizeOk plain { keyed32 [] with blockSize := 16 } ∧ Pgu.blockSizeOk plain { keyed32 [] with blockSize := 64 } ∧
    (16#64).toNat ≠ 0 ∧ (16#64).toNat ≤ (64#64).toNat := by
  refine ⟨plain_valid, rfl, rfl, rfl, ?_, ?_, by decide, by decide⟩ <;> unfold Pgu.blockSizeOk <;> decide

theorem witness_FillThenInvertRestores : plain.Valid ∧ (keyed32 []).err = none ∧ (keyed32 []).keyw = 0b1111#4 ∧
    (keyed32 []).blockSizeOk plain ∧ (keyed32 []).blockSize.toNat ≠ 0 ∧ (keyed32 []).len = (keyed32 []).blockSize := by
  refine ⟨plain_valid, rfl, rfl, ?_, by decide, rfl⟩; unfold Pgu.blockSizeOk; decide

/-- Under the identity cipher the pattern is zeros: a good read, a bad one, and a length of 4. -/
theorem witness_VerifyOracleIsExact : plain.Valid ∧ (keyed32 []).err = none ∧ (keyed32 []).keyw = 0b1111#4 ∧
    (keyed32 []).blockSizeOk plain ∧ 1 ≤ (keyed32 []).len.toNat ∧ (keyed32 []).len.toNat ≤ (keyed32 []).blockSize.toNat ∧
    ((keyed32 []).len.toNat % 16 = 0 ∧ (keyed32 (zeros 32)).bufRead 0 32 = (zeros 32).take 32) ∧
    (keyed32 (List.replicate 32 0x01)).bufRead 0 32 ≠ (zeros 32).take 32 ∧ (4#64).toNat % 16 ≠ 0 := by
  refine ⟨plain_valid, rfl, rfl, ?_, by decide, by decide, by decide, by decide, by decide⟩; unfold Pgu.blockSizeOk; decide

theorem witness_ZeroModeNeedsNoKey : (unit { block48 with len := 48 }).clean ∧ block48.blockSize.toNat ≠ 0 ∧
    1 ≤ (48#64).toNat ∧ (48#64).toNat ≤ block48.blockSize.toNat := by
  exact ⟨rfl, by decide, by decide, by decide⟩

/-- Two strings of two cipher blocks that agree in block 1. -/
theorem witness_XtsIsLocal : (zeros 32).length = (zeros 16 ++ zeros 16).length ∧ (zeros 32).length % 16 = 0 ∧
    16 * 1 + 16 ≤ (zeros 32).length ∧
    ((zeros 32).drop 16).take 16 = ((List.replicate 16 0x01#8 ++ zeros 16).drop 16).take 16 := by decide

/-- The corrupted read of V37: byte 5. -/
theorem witness_CorruptionShowsInItsCipherBlock :
    let r := patternKB.set 5 0xc0
    r.length % 16 = 0 ∧ patternKB = xtsEnc (keyed32 []).subKey1 (keyed32 []).subKey2 (zeros 16) (zeros r.length) ∧
      5 < r.length ∧ r[5]? ≠ patternKB[5]? ∧ ∀ j < 5, r[j]? = patternKB[j]? := by decide +kernel

theorem witness_FaultedCommandsAreIgnored : (unit { blank with err := some .index }).pgu.err ≠ none := by decide

theorem witness_FaultedStateIsFrozen : (unit { blank with err := some .index }).pgu.err ≠ none ∧ 0x14#5 ≤ 0x1f#5 := by decide

theorem witness_FirstFaultSticks : ∃ s t : State, s.pgu.err ≠ none ∧ step s = .next t ∧
    ∀ rest, s.host.script ≠ .reset :: rest := by
  refine ⟨(unit { blank with err := some .index }).withFetchWord 64 0x13, _, by decide, rfl, ?_⟩
  intro rest h
  cases h

/-- The highest offset; a fault that is not a mismatch, and one that is. -/
theorem witness_FaultsArePrecise : blank.err = none ∧ 18446744073709551615 < 2 ^ 64 ∧ (unit blank).clean ∧
    (∃ t, step ((unit blank).withFetchWord 64 0x05) = .next t ∧ t.pgu.err = some .illCmd) ∧
    ∃ t, step ((unit { blank with len := 1, buf := [(0, 0x80#8)] }).withFetchWord 64 0x13) = .next t ∧
      t.pgu.err = some .mismatch := ⟨rfl, by decide, rfl, ⟨_, rfl, rfl⟩, ⟨_, rfl, rfl⟩⟩

/-- The ends of the reserved and of the KEY ranges of register numbers. -/
theorem witness_RegReadReturnsTheRegister : (unit blank).clean ∧ ¬ (unit { blank with err := some .index }).clean ∧
    0x14#5 ≤ 0x14#5 ∧ 0x14#5 ≤ 0x1f#5 ∧ (0x10#5 ≤ 0x13#5 ∧ 0x13#5 ≤ 0x13#5) := by
  exact ⟨rfl, by unfold State.clean; decide, by decide, by decide, by decide⟩

theorem witness_RegWriteStoresTheValue : ¬ (unit { blank with err := some .index }).clean ∧ (unit blank).clean ∧ (0x08#5 ≤ 0x0e#5 ∧ 0x0e#5 ≤ 0x0e#5) ∧
    2 ^ 32 ≤ (0x100000000#64).toNat ∧ (0xffffffff#64).toNat < 2 ^ 32 := by
  exact ⟨by unfold State.clean; decide, rfl, by decide, by decide, by decide⟩

theorem witness_KeyBytesAreLittleEndian : 31 < 32 ∧ (keyed32 []).keyBytes[31]? = some 0x1f#8 := by decide

/-- The last byte of the buffer, and one more (V52). -/
theorem witness_MemReadReturnsTheBytes : 134217727 + 1 ≤ 134217728 ∧ 134217728 < 134217727 + 2 ∧ (unit blank).clean ∧
    ¬ (unit { blank with err := some .index }).clean := by
  exact ⟨by decide, by decide, rfl, by unfold State.clean; decide⟩

theorem witness_MemWriteStoresTheBytes : 1 ≤ [0xaa#8].length ∧ ¬ (unit { blank with err := some .index }).clean ∧
    (unit blank).clean ∧ 134217728 < 134217728 + [0xaa#8].length ∧ 134217727 + [0xaa#8].length ≤ 134217728 := by
  exact ⟨by decide, by unfold State.clean; decide, rfl, by decide, by decide⟩

theorem witness_WriteThenReadReturnsTheBytes : (unit blank).clean ∧ 1 ≤ [0x11#8, 0x22#8, 0x33#8].length ∧
    3 + [0x11#8, 0x22#8, 0x33#8].length ≤ 134217728 := by exact ⟨rfl, by decide, by decide⟩

/-- The windows side by side: the last register word and the first buffer byte. -/
theorem witness_BusAddressesDoNotCollide : windowsApart Config.standard { pguBase := 0, bufBase := 256 } ∧ 7 < 8 ∧
    0 < Config.standard.bufCap ∧ regBusAddr { pguBase := 0, bufBase := 256 } 0x1f#5 + 7 = 255 := by
  refine ⟨?_, by decide, by decide, by decide⟩; unfold windowsApart; decide

/-- The register window right after the buffer of 64 bytes; and a line with a bus access. -/
theorem witness_BusAddressesDoNotCollide_aligned : BusMapOk plain { pguBase := 64, bufBase := 0 } ∧
    busAccess { pguBase := 64, bufBase := 0 } (.memRead 63 1) = some (.readBytes 63 1) := by
  refine ⟨⟨by decide, ?_⟩, rfl⟩; unfold windowsApart; decide

/-- The unit with a block size at the buffer's whole size meets the invariant. -/
theorem inv_largest_block : Pgu.Inv plain { keyed32 (zeros 32) with blockSize := 64 } := by
  refine ⟨?_, ?_, ?_, ?_⟩
  · unfold Pgu.blockSizeOk; decide
  · unfold Pgu.rangeOk; decide
  · intro h; exact absurd rfl h
  · unfold Pgu.bufOk; decide

/-- A state that a run reaches, not the reset state: a keyed unit beside a device. -/
def running : State := { pgu := keyed32 (zeros 32), host := { HostSide.reset with devSize := 96, dev := [(95, 0x01#8)] } }

theorem witness_StepKeepsTheInvariant : running.Inv ∧ ∃ t, step (running.withFetchWord 64 0x11) = .next t := by
  refine ⟨⟨⟨?_, ?_, ?_, ?_⟩, by decide, by decide⟩, _, rfl⟩
  · unfold Pgu.blockSizeOk; decide
  · unfold Pgu.rangeOk; decide
  · intro h; exact absurd rfl h
  · unfold Pgu.bufOk; decide

theorem witness_CommandsKeepTheInvariantUnderAnyParameters : plain.Valid ∧
    Pgu.Inv plain { keyed32 (zeros 32) with blockSize := 64 } ∧ (keyed32 (zeros 32)).err = none :=
  ⟨plain_valid, inv_largest_block, rfl⟩

/-- A machine with that unit, and its step under the same parameters. -/
theorem witness_CommandsKeepTheInvariantUnderAnyParameters_step :
    State.InvUnder plain (unit { keyed32 (zeros 32) with blockSize := 64 }) ∧
      ∃ t, stepUnder plain ((unit { keyed32 (zeros 32) with blockSize := 64 }).withFetchWord 64 0x11) = .next t :=
  ⟨⟨inv_largest_block, by decide, by decide⟩, _, rfl⟩

/-- A loaded key, BLOCK_SIZE at the buffer's whole 64 bytes, LEN = 32; an override at BUF_CAP and one above it; a buffer
transfer that ends at BUF_CAP and one past it. -/
theorem witness_ParametersDecideTheMachine : plain.Valid ∧ (unit { keyed32 (zeros 32) with blockSize := 64 }).clean ∧
    Pgu.blockSizeOk plain { keyed32 (zeros 32) with blockSize := 64 } ∧ (keyed32 (zeros 32)).keyw = 0b1111#4 ∧
    ((keyed32 []).len.toNat ≠ 0 ∧ (keyed32 []).len.toNat % 16 = 0 ∧ (keyed32 []).len.toNat ≤ (64#64).toNat) ∧
    (16 ≤ (64#64).toNat ∧ (64#64).toNat % 16 = 0 ∧ ¬ plain.bufCap < (64#64).toNat) ∧ plain.bufCap < (80#64).toNat ∧
    63 + [0xaa#8].length ≤ plain.bufCap ∧ plain.bufCap < 64 + [0xaa#8].length ∧
    ((unit block48).withFetchWord 64 0x11).host.script = .regWrite 0x00#5 0x11#64 :: [] :=
  ⟨plain_valid, rfl, inv_largest_block.blockSize, rfl, by decide, by decide, by decide, by decide, by decide, rfl⟩

/-- No override: a computed size of 1 MiB above the buffer of 64 bytes, and one that is no multiple of 16 (V13). -/
theorem witness_ParametersDecideTheMachine_computed : (unit { blank with diskSize := 1 }).clean ∧
    (1#64).toNat ≠ 0 ∧ { blank with diskSize := 1 }.ovrEn = false ∧
    (min (max (1 / 1000 / 512 * 512) 1048576) 134217728 % 16 = 0 ∧
      plain.bufCap < min (max (1 / 1000 / 512 * 512) 1048576) 134217728) ∧
    min (max (64023257088 / 1000 / 520 * 520) 1048576) 134217728 % 16 ≠ 0 :=
  ⟨rfl, by decide, rfl, by decide, by decide⟩

theorem witness_OnlyCheckReportsAMismatch : ∃ s t : State, s.clean ∧ step s = .next t ∧ t.pgu.err = some .mismatch :=
  ⟨(unit { blank with len := 1, buf := [(0, 0x80#8)] }).withFetchWord 64 0x13, _, rfl, rfl, rfl⟩

/-- A step that is neither a reset nor a CHECK. -/
theorem witness_OnlyCheckReportsAMismatch_badOff : ∃ s t : State, step s = .next t ∧
    (∀ rest, s.host.script ≠ .reset :: rest) ∧ ∀ rest, s.host.script ≠ .regWrite 0x00#5 (encode .check) :: rest := by
  refine ⟨(unit blank).withFetchWord 64 0x12, _, rfl, ?_, ?_⟩
  · intro rest h; cases h
  · intro rest h; exact absurd (HostOp.regWrite.inj (List.cons.inj h).1).2 (by decide)

theorem witness_OnlyKeyWritesChangeTheKey : ∃ s t : State, step s = .next t ∧ (∀ rest, s.host.script ≠ .reset :: rest) ∧
    ∀ r v rest, 0x10#5 ≤ r → r ≤ 0x13#5 → s.host.script ≠ .regWrite r v :: rest := by
  refine ⟨(unit (keyed32 [])).withFetchWord 64 0x11, _, rfl, ?_, ?_⟩
  · intro rest h; cases h
  · intro r v rest h1 _ h
    cases h
    exact absurd h1 (by decide)

theorem witness_DevWriteMovesTheBlock : small.pgu.start.toNat = 2 ∧ small.pgu.len.toNat = 4 ∧ 4 ≤ 134217728 ∧
    2 + 4 ≤ small.host.devSize.toNat ∧ small.host.nextAnswer = .faithful ∧
    HostSide.nextAnswer { small.host with answers := [.altered [5, 6, 7, 8]] } = .altered [5, 6, 7, 8] ∧
    [5#8, 6#8, 7#8, 8#8].length = 4 := by decide

theorem witness_DevReadLoadsTheBlock : small.clean ∧ small.pgu.start.toNat = 2 ∧ small.pgu.len.toNat = 4 ∧
    2 + 4 ≤ small.host.devSize.toNat ∧ small.host.nextAnswer = .faithful ∧
    HostSide.nextAnswer { small.host with answers := [.altered [5, 6, 7, 8]] } = .altered [5, 6, 7, 8] := by
  exact ⟨rfl, by decide, by decide, by decide, by decide, by decide⟩

/-- No bytes; a device one byte too short; a transfer that fails; one that is a byte short. -/
theorem witness_DeviceTransfersStopOrFail : (unit blank).pgu.len.toNat = 0 ∧ small.pgu.len.toNat ≠ 0 ∧
    (5#64).toNat < small.pgu.start.toNat + small.pgu.len.toNat ∧
    small.pgu.start.toNat + small.pgu.len.toNat ≤ small.host.devSize.toNat ∧
    HostSide.nextAnswer { small.host with answers := [.ioError [5, 6]] } = .ioError [5, 6] ∧
    HostSide.nextAnswer { small.host with answers := [.altered [5, 6, 7]] } = .altered [5, 6, 7] ∧
    [5#8, 6#8, 7#8].length ≠ 4 := by decide

theorem witness_MismatchHasItsOwnExitStatus : plain.Valid ∧ RunEnd.exitStatus plain (.mismatch 37) = 2 ∧
    RunEnd.exitStatus plain .configError = 1 := ⟨plain_valid, rfl, rfl⟩

/-- A host that has just read the STATUS of a unit, for each clause on its fault. -/
theorem witness_MismatchHasItsOwnExitStatus_status :
    HostSide.lastValue { HostSide.reset with replies := [.value { blank with err := some .key }.statusWord] } =
      some { blank with err := some .key }.statusWord ∧ blank.err = none ∧
    { blank with err := some .mismatch }.err = some .mismatch ∧ { blank with err := some .key }.err = some .key ∧
    { blank with err := some .len }.err = some .len := ⟨rfl, rfl, rfl, rfl, rfl⟩

theorem witness_PseudoInstructionsExpand : (zeros 32).length = 32 := by decide

theorem witness_ConfigurationSequence : Request.rejected Request.readScan 100 = false ∧
    Request.rejected { Request.readScan with wantRandom := true, key := some (List.replicate 64 'f'), ovr := some 48 } 96 =
      false := by decide

end Sys2Proof.Tests
end

section
/-! PROOFS. The reset input: what it answers and what it leaves in the registers (spec/10_state.md R37). -/

namespace Sys2Proof.Machine

/-- The reset input is never stopped, and only the unit moves (spec/70_reset_and_hazards.md R136). -/
theorem runOp_reset (s : State) : runOp .reset s = .next (s.mapPgu Pgu.resetAgain) := rfl

/-- STATUS holds nothing but ERR and KEYW: with no fault and no key written it reads 0 (R17). -/
theorem statusWord_eq_zero {p : Pgu} (herr : p.err = none) (hkey : p.keyw = 0#4) : p.statusWord = 0#64 := by
  have hfield : p.errField = 0#8 := by simp [Pgu.errField, herr]
  simp [Pgu.statusWord, hfield, hkey]

/-- Settles O46: STATUS is computed from ERR and KEYW, every other register is stored as 0 by the reset. -/
theorem resetLeavesZeros : Obligations.ResetLeavesZeros := by
  intro s
  have hstatus : s.pgu.resetAgain.statusWord = 0#64 := statusWord_eq_zero rfl rfl
  refine ⟨s.mapPgu Pgu.resetAgain, runOp_reset s, mapPgu_host s _, ?_⟩
  simp only [mapPgu_pgu, hstatus]
  simp [Pgu.resetAgain, Pgu.reset]

end Sys2Proof.Machine
end

section
/-! PROOFS. The four primitives by register number and by buffer range: what RegRead, RegWrite, MemRead and MemWrite
answer, which fault each raises, and what they leave unchanged (spec/20_memory.md R40, R41, R43, R44). -/

namespace Sys2Proof.Machine

/-! ### The register numbers by access (spec/10_state.md R15) -/

theorem access_of_reservedNumber (r : RegNum) (h : r = 0x0F#5 ∨ 0x14#5 ≤ r) : (regName r).access = .none := by
  revert r; decide

theorem access_of_cmd_or_key (r : RegNum) (h : r = 0x00#5 ∨ (0x10#5 ≤ r ∧ r ≤ 0x13#5)) :
    (regName r).access = .writeOnly := by
  revert r; decide

theorem access_of_status_or_result (r : RegNum) (h : r = 0x01#5 ∨ (0x08#5 ≤ r ∧ r ≤ 0x0E#5)) :
    (regName r).access = .readOnly := by
  revert r; decide

/-! ### Register reads (spec/20_memory.md R40) -/

theorem readReg_of_reserved (p : Pgu) {r : RegName} (h : r.access = .none) : p.readReg r = (p.raise .illReg, 0) := by
  unfold Pgu.readReg; rw [h]

theorem readReg_of_writeOnly (p : Pgu) {r : RegName} (h : r.access = .writeOnly) : p.readReg r = (p, 0) := by
  unfold Pgu.readReg; rw [h]

theorem readReg_of_readable (p : Pgu) {r : RegName} (h : r.access = .readOnly ∨ r.access = .readWrite) :
    p.readReg r = (p, p.regView r) := by
  unfold Pgu.readReg; rcases h with h | h <;> rw [h]

/-- A register read moves the unit and tells the host exactly as `readReg` answers. -/
theorem runOp_regRead_eq {s : State} {r : RegNum} {q : Pgu} {v : Word} (h : s.pgu.readReg (regName r) = (q, v)) :
    runOp (.regRead r) s = .next { pgu := q, host := s.told v } := by
  change Host.Outcome.next (regRead r s) = _
  rw [regRead, h]; rfl

/-- Reading a register whose access admits it tells the host what the register reads as, and that is all. -/
theorem runOp_regRead_of_readable (s : State) (r : RegNum)
    (h : (regName r).access = .readOnly ∨ (regName r).access = .readWrite) :
    runOp (.regRead r) s = .next { s with host := s.told (s.pgu.regView (regName r)) } :=
  runOp_regRead_eq (readReg_of_readable s.pgu h)

/-- Settles O37: the reserved and the write-only numbers go by their access, each readable register by its view. -/
theorem regReadReturnsTheRegister : Obligations.RegReadReturnsTheRegister := by
  intro s r
  have readable := runOp_regRead_of_readable s
  refine ⟨fun hr hs => ?reservedClean, fun hr hs => ?reservedFaulted, fun hr => ?writeOnly, ?_⟩
  case reservedClean =>
    exact runOp_regRead_eq (by rw [readReg_of_reserved _ (access_of_reservedNumber r hr), raise_of_clean _ _ hs]; rfl)
  case reservedFaulted =>
    exact runOp_regRead_eq (by rw [readReg_of_reserved _ (access_of_reservedNumber r hr), raise_of_faulted _ _ hs]; rfl)
  case writeOnly => exact runOp_regRead_eq (readReg_of_writeOnly _ (access_of_cmd_or_key r hr))
  exact ⟨readable 0x01#5 (by decide), readable 0x02#5 (by decide), readable 0x03#5 (by decide),
    readable 0x04#5 (by decide), readable 0x05#5 (by decide), readable 0x06#5 (by decide), readable 0x07#5 (by decide),
    readable 0x08#5 (by decide), readable 0x09#5 (by decide), readable 0x0A#5 (by decide), readable 0x0B#5 (by decide),
    readable 0x0C#5 (by decide), readable 0x0D#5 (by decide), readable 0x0E#5 (by decide)⟩

/-! ### Register writes (spec/20_memory.md R41) -/

/-- Writing a reserved or a read-only register raises E_ILLREG and stores nothing. -/
theorem writeReg_of_unwritable {p : Pgu} {r : RegName} (v : Word) (hp : p.err = none)
    (h : r.access = .none ∨ r.access = .readOnly) : p.writeReg r v = { p with err := some .illReg } := by
  unfold Pgu.writeReg
  rw [if_neg (by simp [Pgu.faulted, hp])]
  rcases h with h | h <;> rw [h] <;> exact raise_of_clean p _ hp

theorem writeReg_of_writable {p : Pgu} {r : RegName} (v : Word) (hp : p.err = none)
    (h : r.access = .writeOnly ∨ r.access = .readWrite) : p.writeReg r v = p.storeReg r v := by
  unfold Pgu.writeReg
  rw [if_neg (by simp [Pgu.faulted, hp])]
  rcases h with h | h <;> rw [h]

theorem storeReg_sectorSize_of_large {p : Pgu} {v : Word} (hp : p.err = none) (hv : 2 ^ 32 ≤ v.toNat) :
    p.storeReg .sectorSize v = { p with err := some .range } := by
  rw [Pgu.storeReg, if_pos hv, raise_of_clean p _ hp]

theorem storeReg_sectorSize_of_small (p : Pgu) {v : Word} (hv : v.toNat < 2 ^ 32) :
    p.storeReg .sectorSize v = { p with sectorSize := v.setWidth 32 } := by
  rw [Pgu.storeReg, if_neg (Nat.not_le.2 hv)]

/-- While faulted a command write changes nothing, whatever its word (spec/30_encoding.md R52). -/
theorem cmdWord_of_faulted (run : Runner) (w : Word) {s : State} (h : s.pgu.err ≠ none) :
    cmdWord run w s = .next s := by
  unfold cmdWord; rw [if_pos ((faulted_eq _).2 h)]

theorem regWrite_of_ne_cmd (run : Runner) {r : RegNum} (v : Word) (s : State) (h : regName r ≠ .cmd) :
    regWrite run r v s = .next { s with pgu := s.pgu.writeReg (regName r) v } := by
  unfold regWrite
  split
  · next hr => exact absurd hr h
  · rfl

theorem regWrite_of_faulted (run : Runner) (r : RegNum) (v : Word) {s : State} (h : s.pgu.err ≠ none) :
    regWrite run r v s = .next s := by
  by_cases hr : regName r = .cmd
  · unfold regWrite; rw [hr]; exact cmdWord_of_faulted run v h
  · rw [regWrite_of_ne_cmd run v s hr, writeReg_of_faulted _ _ _ h]

theorem runOp_regWrite_of_unwritable {s : State} {r : RegNum} (v : Word) (hs : s.clean)
    (h : (regName r).access = .none ∨ (regName r).access = .readOnly) :
    runOp (.regWrite r v) s = .next { s with pgu := { s.pgu with err := some .illReg } } := by
  have hcmd : regName r ≠ .cmd := by intro hr; simp [hr, RegName.access] at h
  exact (regWrite_of_ne_cmd exec v s hcmd).trans (by rw [writeReg_of_unwritable v hs h])

/-- Writing a register whose access admits it, CMD apart, stores the value, and that is all. -/
theorem runOp_regWrite_of_writable {s : State} (r : RegNum) (v : Word) (hs : s.clean)
    (h : regName r ≠ .cmd ∧ ((regName r).access = .writeOnly ∨ (regName r).access = .readWrite)) :
    runOp (.regWrite r v) s = .next { s with pgu := s.pgu.storeReg (regName r) v } :=
  (regWrite_of_ne_cmd exec v s h.1).trans (by rw [writeReg_of_writable v hs h.2])

/-- Settles O38: the numbers that fault go by their access; each writable register stores, SECTOR_SIZE after its bound
on the value. -/
theorem regWriteStoresTheValue : Obligations.RegWriteStoresTheValue := by
  intro s r v
  refine ⟨regWrite_of_faulted exec r v, fun hs => ?_⟩
  have writable (n : RegNum) := runOp_regWrite_of_writable n v hs
  have sectorSize : runOp (.regWrite 0x04#5 v) s = .next { s with pgu := s.pgu.storeReg .sectorSize v } :=
    writable 0x04#5 (by decide)
  refine ⟨fun hr => runOp_regWrite_of_unwritable v hs (.inl (access_of_reservedNumber r hr)),
    fun hr => runOp_regWrite_of_unwritable v hs (.inr (access_of_status_or_result r hr)),
    rfl, writable 0x02#5 (by decide), writable 0x03#5 (by decide), fun hv => ?sectorSizeLarge,
    fun hv => ?sectorSizeSmall, writable 0x05#5 (by decide), writable 0x06#5 (by decide), writable 0x07#5 (by decide),
    writable 0x10#5 (by decide), writable 0x11#5 (by decide), writable 0x12#5 (by decide), writable 0x13#5 (by decide)⟩
  case sectorSizeLarge => rw [sectorSize, storeReg_sectorSize_of_large hs hv]
  case sectorSizeSmall =>
    refine ⟨v.setWidth 32, by rw [BitVec.toNat_setWidth, Nat.mod_eq_of_lt hv], ?_⟩
    rw [sectorSize, storeReg_sectorSize_of_small s.pgu hv]

/-! ### Buffer reads (spec/20_memory.md R43) -/

theorem memRead_of_inRange {cfg : Config} (p : Pgu) {a n : Nat} (h : a + n ≤ cfg.bufCap) :
    p.memRead cfg a n = (p, p.bufRead a n) := by
  unfold Pgu.memRead; rw [outOfRange_of_le cfg a n h]; rfl

theorem memRead_of_pastEnd {cfg : Config} (p : Pgu) {a n : Nat} (hn : n ≠ 0) (h : cfg.bufCap < a + n) :
    p.memRead cfg a n = (p.raise .bufRange, zeros n) := by
  unfold Pgu.memRead; rw [if_pos ((outOfRange_iff cfg a n hn).2 h)]

/-- A buffer read moves the unit and tells the host exactly as `Pgu.memRead` answers under the default parameters. -/
theorem runOp_memRead_eq {s : State} {a n : Nat} {q : Pgu} {data : List Byte}
    (h : s.pgu.memRead Config.standard a n = (q, data)) :
    runOp (.memRead a n) s = .next { pgu := q, host := s.host.receive (.bytes data) } := by
  change Host.Outcome.next (memRead Config.standard a n s) = _
  rw [memRead, h]

/-- Settles O41: within the buffer the bytes are those of `bufRead`; past its end the fault is raised on a clean unit and
dropped on a faulted one. -/
theorem memReadReturnsTheBytes : Obligations.MemReadReturnsTheBytes := by
  intro s a n hn
  have hn0 : n ≠ 0 := by omega
  refine ⟨fun hin => ?_, fun hpast hs => ?_, fun hpast hs => ?_⟩
  · exact ⟨s.pgu.bufRead a n, bufRead_length _ _ _, fun i hi => by rw [bufRead_getElem?, if_pos hi],
      runOp_memRead_eq (memRead_of_inRange s.pgu hin)⟩
  · exact runOp_memRead_eq (by rw [memRead_of_pastEnd s.pgu hn0 hpast, raise_of_clean _ _ hs])
  · exact runOp_memRead_eq (by rw [memRead_of_pastEnd s.pgu hn0 hpast, raise_of_faulted _ _ hs])

/-! ### Buffer writes (spec/20_memory.md R44) -/

theorem memWrite_of_pastEnd {cfg : Config} {p : Pgu} {a : Nat} {data : List Byte} (hp : p.err = none)
    (hn : data.length ≠ 0) (h : cfg.bufCap < a + data.length) :
    p.memWrite cfg a data = { p with err := some .bufRange } := by
  unfold Pgu.memWrite
  rw [if_neg (by simp [Pgu.faulted, hp]), if_pos ((outOfRange_iff cfg a _ hn).2 h), raise_of_clean p _ hp]

theorem memWrite_of_inRange {cfg : Config} {p : Pgu} {a : Nat} {data : List Byte} (hp : p.err = none)
    (h : a + data.length ≤ cfg.bufCap) : p.memWrite cfg a data = p.bufWrite a data := by
  unfold Pgu.memWrite
  rw [if_neg (by simp [Pgu.faulted, hp]), outOfRange_of_le cfg a _ h]; rfl

/-- Inside the write, BUF reads the written bytes in index order. -/
theorem bufByte_bufWrite_inside (p : Pgu) (a : Nat) {data : List Byte} {i : Nat} (hi : i < data.length) :
    data[i]? = some ((p.bufWrite a data).bufByte (a + i)) := by
  rw [bufByte_bufWrite, dif_pos ⟨by omega, by omega⟩, List.getElem?_eq_getElem hi]
  simp

/-- Outside the write, BUF reads as before. -/
theorem bufByte_bufWrite_outside (p : Pgu) {a x : Nat} {data : List Byte} (hx : x < a ∨ a + data.length ≤ x) :
    (p.bufWrite a data).bufByte x = p.bufByte x := by
  rw [bufByte_bufWrite, dif_neg (by omega)]

/-- A buffer write moves the unit as `Pgu.memWrite` answers under the default parameters, and nothing else. -/
theorem runOp_memWrite_eq {s : State} {a : Nat} {data : List Byte} {q : Pgu}
    (h : s.pgu.memWrite Config.standard a data = q) : runOp (.memWrite a data) s = .next { s with pgu := q } := by
  rw [← h]; rfl

/-- Settles O42: a faulted unit ignores the write, one past the buffer's end raises the fault alone, and one within it
leaves the store of `bufWrite`. -/
theorem memWriteStoresTheBytes : Obligations.MemWriteStoresTheBytes := by
  intro s a data hlen
  have hlen0 : data.length ≠ 0 := by omega
  refine ⟨fun hs => runOp_memWrite_eq (memWrite_of_faulted _ _ _ _ hs),
    fun hs hpast => runOp_memWrite_eq (memWrite_of_pastEnd hs hlen0 hpast), fun hs hin => ?_⟩
  exact ⟨Mem.write s.pgu.buf a data, runOp_memWrite_eq (memWrite_of_inRange hs hin),
    fun i hi => bufByte_bufWrite_inside s.pgu a hi, fun x hx => bufByte_bufWrite_outside s.pgu hx⟩

end Sys2Proof.Machine
end

section
/-! PROOFS. The command words and the pseudo-instructions: which words decode to which command (spec/30_encoding.md R52,
R54), what a write of any other word does (R55), and the lines the pseudo-instructions stand for (R59). -/

namespace Sys2Proof

/-! ### The fields of a command word (R52) -/

/-- A word is its two fields, ZERO above OPC. -/
theorem zeroFieldOf_append_opcField (w : Word) : zeroFieldOf w ++ opcField w = w :=
  (BitVec.extractLsb'_append_extractLsb'_eq_extractLsb' rfl).trans BitVec.extractLsb'_eq_self

/-- The fields of a command's word, and that every command is well-formed. -/
theorem encode_fields (i : Instr) : Laws.ZeroField.Statement i := by
  cases i
  exacts [Laws.ZeroField.choose, Laws.ZeroField.count, Laws.ZeroField.offset, Laws.ZeroField.startblk,
    Laws.ZeroField.zero, Laws.ZeroField.fill, Laws.ZeroField.invert, Laws.ZeroField.check]

/-- A word is a command's word exactly when its ZERO field is zero and its OPC field is the command's opcode. -/
theorem eq_encode_iff (w : Word) (i : Instr) : w = encode i ↔ zeroFieldOf w = 0 ∧ opcField w = opcodeOf i := by
  obtain ⟨hencZero, hencOpc, -⟩ := encode_fields i
  constructor
  · rintro rfl; exact ⟨hencZero, hencOpc⟩
  · rintro ⟨hzero, hopc⟩
    rw [← zeroFieldOf_append_opcField w, ← zeroFieldOf_append_opcField (encode i), hzero, hopc, hencZero, hencOpc]

/-- The opcode map finds a command under its own opcode and under no other (R54). -/
theorem opcodeMap_eq_some_iff (opc : Byte) (i : Instr) : opcodeMap opc = some i ↔ opc = opcodeOf i := by
  constructor
  · intro h
    unfold opcodeMap at h
    split_ifs at h <;> cases h <;> assumption
  · rintro rfl; cases i <;> rfl

/-! ### The decoder (R52, R54) -/

theorem decodeWord_eq_ok_iff_fields (w : Word) (i : Instr) :
    decodeWord w = .ok i ↔ zeroFieldOf w = 0 ∧ opcodeMap (opcField w) = some i := by
  unfold decodeWord
  by_cases hzero : zeroFieldOf w = 0
  · rw [if_neg (not_not.2 hzero)]
    cases opcodeMap (opcField w) <;> simp [hzero]
  · rw [if_pos hzero]
    exact ⟨nofun, fun h => absurd h.1 hzero⟩

/-- The decoder and the encoder are inverse: a word decodes to a command exactly when it is that command's word. -/
theorem decodeWord_eq_ok_iff (w : Word) (i : Instr) : decodeWord w = .ok i ↔ w = encode i := by
  rw [decodeWord_eq_ok_iff_fields, opcodeMap_eq_some_iff, eq_encode_iff]

/-! ### Little-endian bytes (spec/00_scope.md R9) -/

theorem leNat_lt (bytes : List Byte) : leNat bytes < 256 ^ bytes.length := by
  induction bytes with
  | nil => simp [leNat]
  | cons b rest ih =>
    have hb : b.toNat < 256 := b.isLt
    rw [leNat, List.length_cons, Nat.pow_succ]
    omega

/-- The bytes of the number a byte string spells are that string. -/
theorem leBytes_leNat (bytes : List Byte) : leBytes bytes.length (leNat bytes) = bytes := by
  induction bytes with
  | nil => rfl
  | cons b rest ih =>
    have hb : b.toNat < 256 := b.isLt
    have hlow : BitVec.ofNat 8 (b.toNat + 256 * leNat rest) = b := by
      apply BitVec.eq_of_toNat_eq
      rw [BitVec.toNat_ofNat]; omega
    have hhigh : (b.toNat + 256 * leNat rest) / 256 = leNat rest := by omega
    rw [leNat, List.length_cons, leBytes, hlow, hhigh, ih]

/-- The word eight bytes spell is stored as those eight bytes. -/
theorem le64_wordOfBytes {bytes : List Byte} (h : bytes.length = 8) : le64 (wordOfBytes bytes) = bytes := by
  have hlt : leNat bytes < 2 ^ 64 := by simpa [h] using leNat_lt bytes
  have hnat : (wordOfBytes bytes).toNat = leNat bytes := by
    rw [wordOfBytes, BitVec.toNat_ofNat, Nat.mod_eq_of_lt hlt]
  rw [le64, hnat, ← h, leBytes_leNat]

end Sys2Proof

namespace Sys2Proof.Machine

/-- Settles O2: the decoder inverts the encoder on every word; the eight words are the encoder's values. -/
theorem eachCommandHasOneWord : Obligations.EachCommandHasOneWord :=
  ⟨decodeWord_eq_ok_iff, rfl, rfl, rfl, rfl, rfl, rfl, rfl, rfl⟩

/-! ### A command write by its word (R52, R55) -/

/-- In a not-faulted unit a word the decoder rejects, for whatever reason, raises E_ILLCMD and does nothing else. -/
theorem cmdWord_of_error (run : Runner) {w : Word} {e : DecodeError} {s : State} (hs : s.clean)
    (hw : decodeWord w = .error e) :
    cmdWord run w s = .next { s with pgu := { s.pgu with err := some .illCmd } } := by
  unfold cmdWord
  rw [if_neg (by simp [(not_faulted_eq s.pgu).2 hs]), hw]
  simp only [State.mapPgu, raise_of_clean s.pgu .illCmd hs]

/-- Settles O4: a word that is no command's word is one the decoder rejects. -/
theorem illegalWordOnlyRaises : Obligations.IllegalWordOnlyRaises := by
  intro s w hs hw
  cases hdec : decodeWord w with
  | ok i => exact absurd ((decodeWord_eq_ok_iff w i).1 hdec) (hw i)
  | error e => exact cmdWord_of_error exec hs hdec

/-! ### The pseudo-instructions (R59) -/

/-- The value SETKEY writes to KEY`n` has the key's `n`-th group of eight as its bytes. -/
theorem le64_keyWord {key : List Byte} {n : Nat} (h : 8 * n + 8 ≤ key.length) :
    le64 (keyWord key n) = (key.drop (8 * n)).take 8 :=
  le64_wordOfBytes (by rw [List.length_take, List.length_drop]; omega)

/-- Settles O57: SETKEY writes the four words of the key's groups; the other four are defined as the lines they stand
for. -/
theorem pseudoInstructionsExpand : Obligations.PseudoInstructionsExpand := by
  refine ⟨fun key hkey => ?setkey, rfl, fun _ => rfl, rfl, rfl⟩
  case setkey =>
    have group (n : Nat) (hn : n < 4) : le64 (keyWord key n) = (key.drop (8 * n)).take 8 := le64_keyWord (by omega)
    exact ⟨keyWord key 0, keyWord key 1, keyWord key 2, keyWord key 3, group 0 (by omega), group 1 (by omega),
      group 2 (by omega), group 3 (by omega), rfl⟩

end Sys2Proof.Machine
end

section
/-! PROOFS. The block-range calculator: when each check of CHOOSE, COUNT, OFFSET and STARTBLK fires, the result each
stores, which fits its 64-bit register (spec/40_block_range.md R64 to R67), and the tiling of the device (R70). -/

namespace Sys2Proof.Machine

/-! ### The block count and the block ranges as functions (R65, R66) -/

/-- The block count is the ceiling of the division: the indices below it are those whose block starts in the device. -/
theorem lt_countFn_iff {d b : Nat} (i : Nat) (hb : 0 < b) : i < countFn d b ↔ i * b < d := by
  unfold countFn
  by_cases hr : d % b = 0
  · rw [if_neg (not_not.2 hr), Nat.add_zero, Nat.lt_div_iff_mul_lt_of_dvd hb.ne' (Nat.dvd_of_mod_eq_zero hr)]
  · have hne : i * b ≠ d := by rintro rfl; exact hr (Nat.mul_mod_left i b)
    rw [if_pos hr, Nat.lt_succ_iff, Nat.le_div_iff_mul_le hb]
    omega

theorem countFn_le {d b : Nat} (hb : 0 < b) : countFn d b ≤ d := by
  by_contra h
  have hstart : d * b < d := (lt_countFn_iff d hb).1 (Nat.not_le.1 h)
  exact absurd (Nat.le_mul_of_pos_right d hb) (Nat.not_le.2 hstart)

theorem offsetFn_of_le {d b i : Nat} (h : d ≤ i * b) : offsetFn d b i = none := if_pos h

theorem offsetFn_of_lt {d b i : Nat} (h : i * b < d) :
    offsetFn d b i = some (i * b, min (i * b + b - 1) (d - 1)) := if_neg (Nat.not_le.2 h)

/-- Settles O13: block `i` starts in the device exactly when `i` is below the count, so the range of an inner block is cut
by the block size and that of the last one by the device's end. -/
theorem blocksTileTheDevice : Obligations.BlocksTileTheDevice := by
  rintro d b n hd hb rfl
  refine ⟨fun i hi => ?_, _, by simpa using offsetFn_of_lt (b := b) (i := 0) (by omega)⟩
  have hstart : i * b < d := (lt_countFn_iff i hb).1 hi
  have hnext : (i + 1) * b = i * b + b := Nat.succ_mul i b
  refine ⟨_, offsetFn_of_lt hstart, by omega, fun hinner => ?inner, fun hlast => ?last⟩
  case inner =>
    have hfull : (i + 1) * b < d := (lt_countFn_iff (i + 1) hb).1 hinner
    omega
  case last =>
    have hend : d ≤ (i + 1) * b := Nat.not_lt.1 (mt (lt_countFn_iff (i + 1) hb).2 hlast.not_lt)
    omega

/-! ### Commands in a not-faulted unit -/

/-- In a not-faulted state a command answers its effect on the unit, and nothing else moves. -/
theorem exec_of_clean {s : State} {i : Instr} {q : Pgu} (hs : s.clean)
    (h : commandEffect Config.standard i s.pgu = q) : exec i s = .next { s with pgu := q } := by
  rw [exec_eq, ← h]; exact runCommand_of_clean _ s hs

/-- A result that is at most a register's value is not wrapped when it is stored. -/
theorem toNat_ofNat_of_le_word {n : Nat} (w : Word) (h : n ≤ w.toNat) : (BitVec.ofNat 64 n).toNat = n := by
  rw [BitVec.toNat_ofNat, Nat.mod_eq_of_lt (h.trans_lt w.isLt)]

/-! ### COUNT (R65) -/

theorem count_of_noDisk {p : Pgu} (hp : p.err = none) (hd : p.diskSize.toNat = 0) :
    p.count = { p with err := some .diskSize } := by
  rw [Pgu.count, if_pos hd, raise_of_clean p _ hp]

theorem count_of_noBlockSize {p : Pgu} (hp : p.err = none) (hd : p.diskSize.toNat ≠ 0) (hb : p.blockSize.toNat = 0) :
    p.count = { p with err := some .blkSize } := by
  rw [Pgu.count, if_neg hd, if_pos hb, raise_of_clean p _ hp]

theorem count_of_sizes {p : Pgu} (hd : p.diskSize.toNat ≠ 0) (hb : p.blockSize.toNat ≠ 0) :
    p.count = p.setBlockCount (countFn p.diskSize.toNat p.blockSize.toNat) := by
  rw [Pgu.count, if_neg hd, if_neg hb]

/-- Settles O9: the count is at most the device's size, so the register holds it unwrapped. -/
theorem countStoresTheCeiling : Obligations.CountStoresTheCeiling := fun s hs =>
  ⟨fun hd => exec_of_clean hs (count_of_noDisk hs hd),
    fun hd hb => exec_of_clean hs (count_of_noBlockSize hs hd hb),
    fun hd hb => ⟨_, toNat_ofNat_of_le_word s.pgu.diskSize (countFn_le (Nat.pos_of_ne_zero hb)),
      exec_of_clean hs (count_of_sizes hd hb)⟩⟩

/-! ### OFFSET (R66) -/

theorem offset_of_noBlockSize {p : Pgu} (hp : p.err = none) (hb : p.blockSize.toNat = 0) :
    p.offset = { p with err := some .blkSize } := by
  rw [Pgu.offset, if_pos hb, raise_of_clean p _ hp]

theorem offset_of_pastEnd {p : Pgu} (hp : p.err = none) (hb : p.blockSize.toNat ≠ 0)
    (hi : p.diskSize.toNat ≤ p.index.toNat * p.blockSize.toNat) : p.offset = { p with err := some .index } := by
  rw [Pgu.offset, if_neg hb, offsetFn_of_le hi]; exact raise_of_clean p _ hp

theorem offset_of_inRange {p : Pgu} (hb : p.blockSize.toNat ≠ 0)
    (hi : p.index.toNat * p.blockSize.toNat < p.diskSize.toNat) :
    p.offset = p.setRange (p.index.toNat * p.blockSize.toNat)
      (min (p.index.toNat * p.blockSize.toNat + p.blockSize.toNat - 1) (p.diskSize.toNat - 1)) := by
  rw [Pgu.offset, if_neg hb, offsetFn_of_lt hi]

/-- Settles O10: START, END and LEN are each at most the device's size, so no register wraps. -/
theorem offsetStoresTheRange : Obligations.OffsetStoresTheRange := by
  rintro s d b i hs rfl rfl rfl
  refine ⟨fun hb => exec_of_clean hs (offset_of_noBlockSize hs hb),
    fun hb hi => exec_of_clean hs (offset_of_pastEnd hs hb hi), fun hb hi => ?stored⟩
  case stored =>
    have fits {n : Nat} (h : n ≤ s.pgu.diskSize.toNat) := toNat_ofNat_of_le_word s.pgu.diskSize h
    refine ⟨_, _, _, fits (by omega), fits (by omega), ?length, exec_of_clean hs (offset_of_inRange hb hi)⟩
    case length => rw [fits (by omega), fits (by omega), fits (by omega)]

/-! ### STARTBLK (R67) -/

theorem startblk_of_noBlockSize {p : Pgu} (hp : p.err = none) (hb : p.blockSize.toNat = 0) :
    p.startblk = { p with err := some .blkSize } := by
  rw [Pgu.startblk, if_pos hb, raise_of_clean p _ hp]

theorem startblk_of_pastEnd {p : Pgu} (hp : p.err = none) (hb : p.blockSize.toNat ≠ 0)
    (ho : p.diskSize.toNat ≤ p.startOffset.toNat) : p.startblk = { p with err := some .startOff } := by
  rw [Pgu.startblk, if_neg hb, if_pos ho, raise_of_clean p _ hp]

theorem startblk_of_inRange {p : Pgu} (hb : p.blockSize.toNat ≠ 0) (ho : p.startOffset.toNat < p.diskSize.toNat) :
    p.startblk = p.setStartBlock (p.startOffset.toNat / p.blockSize.toNat) := by
  rw [Pgu.startblk, if_neg hb, if_neg (Nat.not_le.2 ho)]

/-- Settles O11: the floor is at most START_OFFSET, so the register holds it unwrapped. -/
theorem startblkStoresTheFloor : Obligations.StartblkStoresTheFloor := by
  rintro s d b o hs rfl rfl rfl
  exact ⟨fun hb => exec_of_clean hs (startblk_of_noBlockSize hs hb),
    fun hb ho => exec_of_clean hs (startblk_of_pastEnd hs hb ho),
    fun hb ho => ⟨_, toNat_ofNat_of_le_word s.pgu.startOffset (Nat.div_le_self _ _),
      exec_of_clean hs (startblk_of_inRange hb ho)⟩⟩

/-! ### CHOOSE (R64) -/

theorem chosenSize_of_override {p : Pgu} (h : p.ovrEn = true) : p.chosenSize = p.ovr.toNat := by
  simp [Pgu.chosenSize, Pgu.overrideArg, h, chooseFn]

theorem chosenSize_of_computed {p : Pgu} (h : p.ovrEn = false) :
    p.chosenSize = min (max (rawBlockSize p.diskSize.toNat p.sectorSize.toNat) 1048576) 134217728 := by
  simp [Pgu.chosenSize, Pgu.overrideArg, h, chooseFn, Config.minBlockSize, Config.maxBlockSize]

/-- Check 2a of R64. -/
theorem badSize_of_override {p : Pgu} (b : Nat) (h : p.ovrEn = true) :
    p.badSize b = true ↔ b < 16 ∨ b % 16 ≠ 0 := by simp [Pgu.badSize, h]

/-- Check 2b of R64. -/
theorem badSize_of_computed {p : Pgu} (b : Nat) (h : p.ovrEn = false) :
    p.badSize b = true ↔ b % 16 ≠ 0 := by simp [Pgu.badSize, h]

theorem choose_of_noDisk (cfg : Config) {p : Pgu} (hp : p.err = none) (hd : p.diskSize.toNat = 0) :
    p.choose cfg = { p with err := some .diskSize } := by
  rw [Pgu.choose, if_pos hd, raise_of_clean p _ hp]

theorem choose_of_badSize (cfg : Config) {p : Pgu} (hp : p.err = none) (hd : p.diskSize.toNat ≠ 0)
    (hbad : p.badSize p.chosenSize = true) : p.choose cfg = { p with err := some .blkSize } := by
  rw [Pgu.choose, if_neg hd, if_pos hbad, raise_of_clean p _ hp]

theorem choose_of_large {cfg : Config} {p : Pgu} (hp : p.err = none) (hd : p.diskSize.toNat ≠ 0)
    (hok : ¬ p.badSize p.chosenSize = true) (hcap : cfg.bufCap < p.chosenSize) :
    p.choose cfg = { p with err := some .bufCap } := by
  rw [Pgu.choose, if_neg hd, if_neg hok, if_pos hcap, raise_of_clean p _ hp]

theorem choose_of_valid {cfg : Config} {p : Pgu} (hd : p.diskSize.toNat ≠ 0)
    (hok : ¬ p.badSize p.chosenSize = true) (hcap : p.chosenSize ≤ cfg.bufCap) :
    p.choose cfg = p.setBlockSize p.chosenSize := by
  rw [Pgu.choose, if_neg hd, if_neg hok, if_neg (Nat.not_lt.2 hcap)]

/-- Settles O8: with an override the size is OVERRIDE itself, and without one the clamp keeps it within `BUF_CAP`. -/
theorem chooseStoresTheBlockSize : Obligations.ChooseStoresTheBlockSize := by
  intro s hs
  refine ⟨fun hd => exec_of_clean hs (choose_of_noDisk _ hs hd), fun hd hov => ?override,
    fun hd hov sEff raw b hsEff hraw hb => ?computed⟩
  case override =>
    have hsize : s.pgu.chosenSize = s.pgu.ovr.toNat := chosenSize_of_override hov
    rw [← hsize, ← badSize_of_override _ hov]
    refine ⟨fun hbad => exec_of_clean hs (choose_of_badSize _ hs hd hbad),
      fun hok hcap => exec_of_clean hs (choose_of_large hs hd hok hcap),
      fun hok hcap => exec_of_clean hs ((choose_of_valid hd hok hcap).trans ?_)⟩
    rw [hsize, Pgu.setBlockSize, BitVec.ofNat_toNat, BitVec.setWidth_eq]
  case computed =>
    have hsize : s.pgu.chosenSize = b := by
      rw [chosenSize_of_computed hov, hb, hraw, hsEff]; rfl
    have hcap : b ≤ 134217728 := hb ▸ Nat.min_le_right _ _
    subst hsize
    have hbad : s.pgu.badSize s.pgu.chosenSize = true ↔ s.pgu.chosenSize % 16 ≠ 0 := badSize_of_computed _ hov
    exact ⟨fun h => exec_of_clean hs (choose_of_badSize _ hs hd (hbad.2 h)),
      fun h => ⟨_, toNat_ofNat_of_le_word 134217728#64 hcap,
        exec_of_clean hs (choose_of_valid hd (fun hne => hbad.1 hne h) hcap)⟩⟩

end Sys2Proof.Machine
end

section
/-! PROOFS. The pattern engine and the zero checker: when each check of ZERO, FILL, INVERT and CHECK fires, the prefix of
BUF each of the first three stores, and what CHECK's scan finds (spec/41_pattern_engine.md R81, R82, R83, R91). -/

namespace Sys2Proof.Machine

/-! ### The cipher keeps lengths (R86, spec/42_xts_aes128.md R164, R165) -/

@[simp] theorem Block.toBytes_length (x : Block) : x.toBytes.length = 16 := rfl

/-- The whole cipher blocks and what is left over together are as long as the data. -/
theorem xtsBlocks_length (f : Block → Block) (m : Nat) (t : Block) (s : List Byte) (h : 16 * m ≤ s.length) :
    (xtsBlocks f m t s).length = s.length := by
  induction m generalizing t s with
  | zero => rw [xtsBlocks, List.length_map]
  | succ m ih =>
    have hrest : 16 * m ≤ (s.drop 16).length := by rw [List.length_drop]; omega
    rw [xtsBlocks, List.length_append, Block.toBytes_length, ih _ _ hrest, List.length_drop]
    omega

/-- Law T1 at every length, on the domain of T5 or off it. -/
@[simp] theorem xtsEnc_length (k1 k2 t s : List Byte) : (xtsEnc k1 k2 t s).length = s.length :=
  xtsBlocks_length _ _ _ _ (Nat.mul_div_le _ _)

@[simp] theorem xtsDec_length (k1 k2 t s : List Byte) : (xtsDec k1 k2 t s).length = s.length :=
  xtsBlocks_length _ _ _ _ (Nat.mul_div_le _ _)

/-- The default TWEAK_SEED is 0 (R84). -/
theorem tweakBytes_standard : tweakBytes Config.standard = zeros 16 := rfl

/-! ### Storing a prefix of BUF -/

/-- A prefix stored in BUF reads back whole, and every byte after it reads as before. -/
theorem bufWrite_prefix (p : Pgu) {data : List Byte} {n : Nat} (h : data.length = n) :
    (p.bufWrite 0 data).bufRead 0 n = data ∧ ∀ a, n ≤ a → (p.bufWrite 0 data).bufByte a = p.bufByte a := by
  subst h
  exact ⟨bufRead_bufWrite p 0 data, fun a ha => bufByte_bufWrite_outside p (.inr (by omega))⟩

theorem bufByte_bufWrite_zeros (p : Pgu) (n a : Nat) :
    (p.bufWrite 0 (zeros n)).bufByte a = if a < n then 0#8 else p.bufByte a := by
  rw [bufByte_bufWrite]
  by_cases h : a < n <;> simp [h, zeros]

/-! ### ZERO (R81) -/

theorem zero_of_noBlockSize {p : Pgu} (hp : p.err = none) (hb : p.blockSize.toNat = 0) :
    p.zero = { p with err := some .blkSize } := by
  rw [Pgu.zero, if_pos hb, raise_of_clean p _ hp]

theorem zero_of_blockSize {p : Pgu} (hb : p.blockSize.toNat ≠ 0) :
    p.zero = p.bufWrite 0 (zeros p.blockSize.toNat) := by
  rw [Pgu.zero, if_neg hb]

/-- Settles O18: with a block size ZERO is a write of that many zero bytes at the start of BUF. -/
theorem zeroClearsTheBlock : Obligations.ZeroClearsTheBlock := fun s hs =>
  ⟨fun hb => exec_of_clean hs (zero_of_noBlockSize hs hb),
    fun hb => ⟨_, exec_of_clean hs (zero_of_blockSize hb), bufByte_bufWrite_zeros s.pgu s.pgu.blockSize.toNat⟩⟩

/-! ### FILL (R82) -/

/-- Check 2 of R82 and R83. -/
theorem not_keyValid_iff (p : Pgu) : (!p.keyValid) = true ↔ p.keyw ≠ 0b1111#4 := by simp [Pgu.keyValid]

theorem fill_of_noBlockSize (cfg : Config) {p : Pgu} (hp : p.err = none) (hb : p.blockSize.toNat = 0) :
    p.fill cfg = { p with err := some .blkSize } := by
  rw [Pgu.fill, if_pos hb, raise_of_clean p _ hp]

theorem fill_of_noKey (cfg : Config) {p : Pgu} (hp : p.err = none) (hb : p.blockSize.toNat ≠ 0)
    (hk : p.keyw ≠ 0b1111#4) : p.fill cfg = { p with err := some .key } := by
  rw [Pgu.fill, if_neg hb, if_pos ((not_keyValid_iff p).2 hk), raise_of_clean p _ hp]

theorem fill_of_key (cfg : Config) {p : Pgu} (hb : p.blockSize.toNat ≠ 0) (hk : p.keyw = 0b1111#4) :
    p.fill cfg = p.bufWrite 0
      (cfg.tbc.enc p.subKey1 p.subKey2 (tweakBytes cfg) (p.bufRead 0 p.blockSize.toNat)) := by
  rw [Pgu.fill, if_neg hb, if_neg (mt (not_keyValid_iff p).1 (not_not.2 hk))]

/-- Settles O19: past its checks FILL stores a ciphertext as long as the block it read, so the bytes after it stay. -/
theorem fillEncryptsTheBlock : Obligations.FillEncryptsTheBlock := by
  rintro s b hs rfl
  refine ⟨fun hb => exec_of_clean hs (fill_of_noBlockSize _ hs hb),
    fun hb hk => exec_of_clean hs (fill_of_noKey _ hs hb hk), fun hb hk => ?stored⟩
  case stored =>
    have hfill := fill_of_key Config.standard hb hk
    rw [tweakBytes_standard] at hfill
    exact ⟨_, exec_of_clean hs hfill, bufWrite_prefix s.pgu ((xtsEnc_length _ _ _ _).trans (bufRead_length _ _ _))⟩

/-! ### INVERT (R83) -/

/-- Check 3 of R83. -/
theorem badLen_iff (p : Pgu) :
    p.badLen = true ↔ p.len.toNat = 0 ∨ p.len.toNat % 16 ≠ 0 ∨ p.blockSize.toNat < p.len.toNat := decide_eq_true_iff

theorem invert_of_noBlockSize (cfg : Config) {p : Pgu} (hp : p.err = none) (hb : p.blockSize.toNat = 0) :
    p.invert cfg = { p with err := some .blkSize } := by
  rw [Pgu.invert, if_pos hb, raise_of_clean p _ hp]

theorem invert_of_noKey (cfg : Config) {p : Pgu} (hp : p.err = none) (hb : p.blockSize.toNat ≠ 0)
    (hk : p.keyw ≠ 0b1111#4) : p.invert cfg = { p with err := some .key } := by
  rw [Pgu.invert, if_neg hb, if_pos ((not_keyValid_iff p).2 hk), raise_of_clean p _ hp]

theorem invert_of_badLen (cfg : Config) {p : Pgu} (hp : p.err = none) (hb : p.blockSize.toNat ≠ 0)
    (hk : p.keyw = 0b1111#4) (hl : p.badLen = true) : p.invert cfg = { p with err := some .len } := by
  rw [Pgu.invert, if_neg hb, if_neg (mt (not_keyValid_iff p).1 (not_not.2 hk)), if_pos hl, raise_of_clean p _ hp]

theorem invert_of_goodLen (cfg : Config) {p : Pgu} (hb : p.blockSize.toNat ≠ 0) (hk : p.keyw = 0b1111#4)
    (hl : ¬ p.badLen = true) :
    p.invert cfg = p.bufWrite 0
      (cfg.tbc.dec p.subKey1 p.subKey2 (tweakBytes cfg) (p.bufRead 0 p.len.toNat)) := by
  rw [Pgu.invert, if_neg hb, if_neg (mt (not_keyValid_iff p).1 (not_not.2 hk)), if_neg hl]

/-- Settles O20: past its checks INVERT stores a plaintext as long as the LEN bytes it read, so the bytes after it
stay. -/
theorem invertDecryptsTheLength : Obligations.InvertDecryptsTheLength := by
  rintro s b n hs rfl rfl
  rw [← badLen_iff s.pgu]
  refine ⟨fun hb => exec_of_clean hs (invert_of_noBlockSize _ hs hb),
    fun hb hk => exec_of_clean hs (invert_of_noKey _ hs hb hk),
    fun hb hk hl => exec_of_clean hs (invert_of_badLen _ hs hb hk hl), fun hb hk hl => ?stored⟩
  case stored =>
    have hinvert := invert_of_goodLen Config.standard hb hk hl
    rw [tweakBytes_standard] at hinvert
    exact ⟨_, exec_of_clean hs hinvert, bufWrite_prefix s.pgu ((xtsDec_length _ _ _ _).trans (bufRead_length _ _ _))⟩

/-! ### CHECK (R91) -/

theorem firstNonZero_bufRead_none {p : Pgu} {n : Nat} (h : ∀ i < n, p.bufByte i = 0#8) :
    firstNonZero (p.bufRead 0 n) = none := by
  rw [firstNonZero_none]
  simpa [Pgu.bufRead] using h

theorem firstNonZero_bufRead_some {p : Pgu} {n i : Nat} (hi : i < n) (hne : p.bufByte i ≠ 0#8)
    (hleast : ∀ j < i, p.bufByte j = 0#8) : firstNonZero (p.bufRead 0 n) = some i := by
  have hbyte {j : Nat} (hj : j < n) : (p.bufRead 0 n)[j]? = some (p.bufByte j) := by
    rw [bufRead_getElem?, if_pos hj, Nat.zero_add]
  rw [firstNonZero_some]
  exact ⟨⟨_, hbyte hi, hne⟩, fun j hj => by rw [hbyte (hj.trans hi), hleast j hj]⟩

theorem check_of_noLen {p : Pgu} (hp : p.err = none) (hl : p.len.toNat = 0) :
    p.check = { p with err := some .len } := by
  rw [Pgu.check, if_pos hl, raise_of_clean p _ hp]

theorem check_of_zeros {p : Pgu} (hl : p.len.toNat ≠ 0) (h : ∀ i < p.len.toNat, p.bufByte i = 0#8) : p.check = p := by
  rw [Pgu.check, if_neg hl, firstNonZero_bufRead_none h]

theorem check_of_nonZero {p : Pgu} {i : Nat} (hp : p.err = none) (hi : i < p.len.toNat) (hne : p.bufByte i ≠ 0#8)
    (hleast : ∀ j < i, p.bufByte j = 0#8) :
    p.check = { p with err := some .mismatch, badOff := BitVec.ofNat 64 (p.start.toNat + i) } := by
  rw [Pgu.check, if_neg (Nat.ne_zero_of_lt hi), firstNonZero_bufRead_some hi hne hleast]
  exact raiseMismatch_of_clean p _ hp

/-- Settles O21: the scan answers the least index, which is below LEN, so the sum in BADOFF does not wrap. -/
theorem checkFindsTheFirstNonZeroByte : Obligations.CheckFindsTheFirstNonZeroByte := by
  intro s hs hfits
  refine ⟨fun hl => exec_of_clean hs (check_of_noLen hs hl),
    fun hl hzeros => exec_of_clean hs (check_of_zeros hl hzeros), fun i hi hne hleast => ?mismatch⟩
  case mismatch =>
    have hsum : s.pgu.start.toNat + i < 2 ^ 64 := by omega
    exact ⟨_, by rw [BitVec.toNat_ofNat, Nat.mod_eq_of_lt hsum], exec_of_clean hs (check_of_nonZero hs hi hne hleast)⟩

end Sys2Proof.Machine
end

section
/-! PROOFS. What each line of the queue can do to the unit, said once, and what follows from it: a faulted unit is
frozen until a reset (spec/60_exceptions.md R123, R124), and a fault leaves no partial effect (R122). -/

namespace Sys2Proof.Machine

/-! ### Reads in a faulted unit (R123) -/

/-- The view of a register already reads 0 where a read answers 0, so only the fault of a reserved number is dropped. -/
theorem readReg_of_faulted {p : Pgu} (r : RegName) (h : p.err ≠ none) : p.readReg r = (p, p.regView r) := by
  cases r
  case reserved => rw [readReg_of_reserved p rfl, raise_of_faulted p _ h]; rfl
  all_goals rfl

theorem regName_of_reservedNumber (r : RegNum) (h : r = 0x0F#5 ∨ 0x14#5 ≤ r) : regName r = .reserved := by
  revert r; decide

theorem memRead_of_faulted (cfg : Config) {p : Pgu} (a n : Nat) (h : p.err ≠ none) :
    p.memRead cfg a n = (p, if cfg.bufCap < a + n then zeros n else p.bufRead a n) := by
  by_cases hn : n = 0
  · subst hn
    have hread : p.bufRead a 0 = zeros 0 := rfl
    rw [Pgu.memRead, raise_of_faulted p _ h, hread, ite_self, ite_self]
  · by_cases hpast : cfg.bufCap < a + n
    · rw [memRead_of_pastEnd p hn hpast, raise_of_faulted p _ h, if_pos hpast]
    · rw [memRead_of_inRange p (Nat.not_lt.1 hpast), if_neg hpast]

/-- Settles O34: each of the four primitives goes by its own rule for a faulted unit; a reserved number reads as 0 by
its view. -/
theorem faultedStateIsFrozen : Obligations.FaultedStateIsFrozen := by
  intro s r v a n data hs
  refine ⟨regWrite_of_faulted exec r v hs, runOp_memWrite_eq (memWrite_of_faulted _ _ _ _ hs), ?regRead,
    runOp_memRead_eq (memRead_of_faulted _ a n hs)⟩
  case regRead =>
    have hview : (if r = 0x0F#5 ∨ 0x14#5 ≤ r then 0#64 else s.pgu.regView (regName r)) = s.pgu.regView (regName r) :=
      ite_eq_right_iff.2 fun hr => by rw [regName_of_reservedNumber r hr]; rfl
    rw [hview]
    exact runOp_regRead_eq (readReg_of_faulted _ hs)

/-! ### What a line of the queue can do to the unit -/

/-- The ways a line of the queue moves the unit `p`, under the parameters `cfg`: it leaves the unit, raises a code other
than E_MISMATCH, writes a register other than CMD, runs a command of a not-faulted unit, writes BUF, or resets. -/
inductive Pgu.LineMove (cfg : Config) (p : Pgu) : HostOp → Pgu → Prop where
  | kept (op : HostOp) : LineMove cfg p op p
  | raised (op : HostOp) {e : ErrCode} (he : e ≠ .mismatch) : LineMove cfg p op (p.raise e)
  | wrote {r : RegNum} (v : Word) (hr : regName r ≠ .cmd) : LineMove cfg p (.regWrite r v) (p.writeReg (regName r) v)
  | ran (i : Instr) (hp : p.err = none) : LineMove cfg p (.regWrite 0x00#5 (encode i)) (commandEffect cfg i p)
  | stored (op : HostOp) (a : Nat) (data : List Byte) : LineMove cfg p op (p.memWrite cfg a data)
  | reset : LineMove cfg p .reset p.resetAgain

theorem eq_zero_of_regName_cmd (r : RegNum) (h : regName r = .cmd) : r = 0x00#5 := by
  revert r; decide

theorem readReg_move (cfg : Config) (p : Pgu) (op : HostOp) (r : RegName) : p.LineMove cfg op (p.readReg r).1 := by
  unfold Pgu.readReg
  split
  · exact .raised op nofun
  · exact .kept op
  · exact .kept op
  · exact .kept op

theorem memRead_move (cfg : Config) (p : Pgu) (op : HostOp) (a n : Nat) :
    p.LineMove cfg op (p.memRead cfg a n).1 := by
  unfold Pgu.memRead
  split
  · exact .raised op nofun
  · exact .kept op

theorem cmdWord_move {cfg : Config} {w : Word} {s t : State} (h : cmdWord (execUnder cfg) w s = .next t) :
    s.pgu.LineMove cfg (.regWrite 0x00#5 w) t.pgu := by
  by_cases hs : s.pgu.err = none
  · cases hdec : decodeWord w with
    | ok i =>
      obtain rfl : w = encode i := (decodeWord_eq_ok_iff w i).1 hdec
      rw [cmdWord, if_neg (by simp [(not_faulted_eq s.pgu).2 hs]), hdec] at h
      cases h.symm.trans (runCommand_of_clean _ s hs)
      exact .ran i hs
    | error e =>
      cases h.symm.trans (cmdWord_of_error _ hs hdec)
      exact raise_of_clean s.pgu .illCmd hs ▸ .raised _ nofun
  · cases h.symm.trans (cmdWord_of_faulted _ w hs)
    exact .kept _

theorem regWrite_move {cfg : Config} {r : RegNum} {v : Word} {s t : State}
    (h : regWrite (execUnder cfg) r v s = .next t) : s.pgu.LineMove cfg (.regWrite r v) t.pgu := by
  by_cases hr : regName r = .cmd
  · obtain rfl := eq_zero_of_regName_cmd r hr
    exact cmdWord_move h
  · cases h.symm.trans (regWrite_of_ne_cmd _ v s hr)
    exact .wrote v hr

/-- Whatever the device answers, DEVWR moves the unit as its `MemRead` does (spec/30_encoding.md R58). -/
theorem devWrite_move {cfg : Config} {s t : State} (h : devWrite cfg s = .next t) :
    s.pgu.LineMove cfg .devWrite t.pgu := by
  unfold devWrite at h
  split at h
  · cases h
  · dsimp only at h
    split at h <;> cases h <;> exact memRead_move cfg s.pgu .devWrite _ _

/-- DEVRD moves the unit as its `MemWrite` does, which a failing device read leaves out (R58). -/
theorem devRead_move {cfg : Config} {s t : State} (h : devRead cfg s = .next t) :
    s.pgu.LineMove cfg .devRead t.pgu := by
  unfold devRead at h
  split at h
  · cases h
  · split at h
    · cases h; exact .stored _ _ _
    · cases h; exact .kept _

/-- Every line of the queue moves the unit in one of the ways listed. -/
theorem runOpUnder_move {cfg : Config} {op : HostOp} {s t : State} (h : runOpUnder cfg op s = .next t) :
    s.pgu.LineMove cfg op t.pgu := by
  cases op with
  | regWrite r v => exact regWrite_move h
  | regRead r => cases h; exact readReg_move cfg s.pgu _ _
  | memWrite a data => cases h; exact .stored _ a data
  | memRead a n => cases h; exact memRead_move cfg s.pgu _ a n
  | devWrite => exact devWrite_move h
  | devRead => exact devRead_move h
  | reset => cases h; exact .reset

/-- Every step leaves the unit, with an empty queue, or moves it as the line at the queue's head does. -/
theorem stepUnder_move {cfg : Config} {s t : State} (h : stepUnder cfg s = .next t) :
    t.pgu = s.pgu ∨ ∃ op rest, s.host.script = op :: rest ∧ s.pgu.LineMove cfg op t.pgu := by
  unfold stepUnder stepWith at h
  split at h
  · cases h; exact .inl rfl
  · next op rest hscript => exact .inr ⟨op, rest, hscript, runOpUnder_move (s := s.popScript rest) h⟩

/-! ### The first fault sticks (R124) -/

theorem Pgu.LineMove.eq_of_faulted {cfg : Config} {p q : Pgu} {op : HostOp} (h : p.LineMove cfg op q)
    (hp : p.err ≠ none) (hop : op ≠ .reset) : q = p := by
  cases h with
  | kept => rfl
  | raised => exact raise_of_faulted p _ hp
  | wrote v => exact writeReg_of_faulted p _ v hp
  | ran i hclean => exact absurd hclean hp
  | stored a data => exact memWrite_of_faulted cfg p _ _ hp
  | reset => exact absurd rfl hop

/-- Settles O35: every line but the reset moves a faulted unit to itself, and an empty queue leaves the unit. -/
theorem firstFaultSticks : Obligations.FirstFaultSticks := by
  intro s t hs hstep hreset
  obtain hkept | ⟨op, rest, hscript, hmove⟩ := stepUnder_move (step_eq s ▸ hstep)
  · exact hkept
  · exact hmove.eq_of_faulted hs (by rintro rfl; exact hreset rest hscript)

/-! ### Faults are precise (R122) -/

/-- If `q` holds a code, it differs from `p` in ERR only, and in BADOFF for E_MISMATCH only. -/
def Pgu.FaultsPrecisely (p q : Pgu) : Prop :=
  ∀ e, q.err = some e → q = { p with err := some e, badOff := if e = .mismatch then q.badOff else p.badOff }

theorem faultsPrecisely_of_noFault (p : Pgu) {q : Pgu} (h : q.err = none) : p.FaultsPrecisely q :=
  fun _ he => absurd (h.symm.trans he) nofun

theorem faultsPrecisely_raise {p : Pgu} (hp : p.err = none) (e : ErrCode) : p.FaultsPrecisely (p.raise e) := by
  intro e' he
  rw [raise_of_clean p e hp] at he ⊢
  cases he
  rw [ite_self]

theorem faultsPrecisely_raiseMismatch {p : Pgu} (hp : p.err = none) (off : Nat) :
    p.FaultsPrecisely (p.raiseMismatch off) := by
  intro e he
  rw [raiseMismatch_of_clean p off hp] at he ⊢
  cases he
  rfl

/-- A command raises a code before it stores anything, or stores its result and raises nothing. -/
theorem commandEffect_faultsPrecisely (cfg : Config) (i : Instr) {p : Pgu} (hp : p.err = none) :
    p.FaultsPrecisely (commandEffect cfg i p) := by
  have raised := faultsPrecisely_raise hp
  have stored {q : Pgu} (hq : q.err = p.err) : p.FaultsPrecisely q := faultsPrecisely_of_noFault p (hq.trans hp)
  cases i <;> dsimp only [commandEffect]
  case choose =>
    unfold Pgu.choose; split_ifs
    exacts [raised _, raised _, raised _, stored rfl]
  case count =>
    unfold Pgu.count; split_ifs
    exacts [raised _, raised _, stored rfl]
  case offset =>
    unfold Pgu.offset; split_ifs
    · exact raised _
    · split
      exacts [raised _, stored rfl]
  case startblk =>
    unfold Pgu.startblk; split_ifs
    exacts [raised _, raised _, stored rfl]
  case zero =>
    unfold Pgu.zero; split_ifs
    exacts [raised _, stored rfl]
  case fill =>
    unfold Pgu.fill; split_ifs
    exacts [raised _, raised _, stored rfl]
  case invert =>
    unfold Pgu.invert; split_ifs
    exacts [raised _, raised _, raised _, stored rfl]
  case check =>
    unfold Pgu.check; split_ifs
    · exact raised _
    · split
      exacts [faultsPrecisely_raiseMismatch hp _, stored rfl]

theorem storeReg_faultsPrecisely {p : Pgu} (hp : p.err = none) (r : RegName) (v : Word) :
    p.FaultsPrecisely (p.storeReg r v) := by
  cases r
  case sectorSize =>
    unfold Pgu.storeReg; dsimp only; split_ifs
    exacts [faultsPrecisely_raise hp _, faultsPrecisely_of_noFault p hp]
  all_goals exact faultsPrecisely_of_noFault p hp

theorem writeReg_faultsPrecisely {p : Pgu} (hp : p.err = none) (r : RegName) (v : Word) :
    p.FaultsPrecisely (p.writeReg r v) := by
  unfold Pgu.writeReg
  rw [if_neg (by simp [(not_faulted_eq p).2 hp])]
  split
  · exact faultsPrecisely_raise hp _
  · exact faultsPrecisely_raise hp _
  · exact storeReg_faultsPrecisely hp r v
  · exact storeReg_faultsPrecisely hp r v

theorem memWrite_faultsPrecisely (cfg : Config) {p : Pgu} (hp : p.err = none) (a : Nat) (data : List Byte) :
    p.FaultsPrecisely (p.memWrite cfg a data) := by
  unfold Pgu.memWrite; split_ifs
  exacts [faultsPrecisely_of_noFault p hp, faultsPrecisely_raise hp _, faultsPrecisely_of_noFault p hp]

theorem Pgu.LineMove.faultsPrecisely {cfg : Config} {p q : Pgu} {op : HostOp} (h : p.LineMove cfg op q)
    (hp : p.err = none) : p.FaultsPrecisely q := by
  cases h with
  | kept => exact faultsPrecisely_of_noFault p hp
  | raised => exact faultsPrecisely_raise hp _
  | wrote v => exact writeReg_faultsPrecisely hp _ v
  | ran i => exact commandEffect_faultsPrecisely cfg i hp
  | stored a data => exact memWrite_faultsPrecisely cfg hp _ _
  | reset => exact faultsPrecisely_of_noFault p rfl

/-- Settles O36: raising writes ERR and for E_MISMATCH the unwrapped offset; every line of the queue that faults does so
by raising alone. -/
theorem faultsArePrecise : Obligations.FaultsArePrecise := by
  refine ⟨raise_of_clean, fun p off hp hoff => ?mismatch, fun s t e hs hstep he => ?step⟩
  case mismatch =>
    exact ⟨BitVec.ofNat 64 off, by rw [BitVec.toNat_ofNat, Nat.mod_eq_of_lt hoff], raiseMismatch_of_clean p off hp⟩
  case step =>
    have hprecise : s.pgu.FaultsPrecisely t.pgu := by
      obtain hkept | ⟨op, rest, -, hmove⟩ := stepUnder_move (step_eq s ▸ hstep)
      · exact faultsPrecisely_of_noFault s.pgu (hkept ▸ hs)
      · exact hmove.faultsPrecisely hs
    exact hprecise e he

end Sys2Proof.Machine
end

section
/-! PROOFS. Command words as the eight bytes of a bus store: decoding and encoding agree on byte strings
(spec/30_encoding.md R52, R54, R60), and what a step makes of the word it decodes. -/

namespace Sys2Proof

/-! ### Little-endian bytes, the other way round (spec/00_scope.md R9) -/

@[simp] theorem leBytes_length (n v : Nat) : (leBytes n v).length = n := by
  induction n generalizing v with
  | zero => rfl
  | succ n ih => rw [leBytes, List.length_cons, ih]

@[simp] theorem le64_length (v : Word) : (le64 v).length = 8 := leBytes_length 8 v.toNat

/-- The number that the `n` low bytes of `v` spell is `v` without its higher bytes. -/
theorem leNat_leBytes (n v : Nat) : leNat (leBytes n v) = v % 256 ^ n := by
  induction n generalizing v with
  | zero => simp [leBytes, leNat, Nat.mod_one]
  | succ n ih =>
    have hlow : (BitVec.ofNat 8 v).toNat = v % 256 := BitVec.toNat_ofNat v 8
    rw [leBytes, leNat, ih, hlow, Nat.pow_succ', Nat.mod_mul]

theorem wordOfBytes_le64 (w : Word) : wordOfBytes (le64 w) = w := by
  have hlt : w.toNat < 256 ^ 8 := w.isLt
  rw [wordOfBytes, le64, leNat_leBytes, Nat.mod_eq_of_lt hlt, BitVec.ofNat_toNat, BitVec.setWidth_eq]

/-! ### The decoder over byte strings (R52, R56) -/

/-- A byte string decodes exactly when its first eight bytes spell a command's word; the rest is what follows them. -/
theorem decodeBytes_eq_ok_iff (bytes rest : List Byte) (i : Instr) :
    decodeBytes bytes = .ok (i, rest) ↔
      8 ≤ bytes.length ∧ wordOfBytes (bytes.take 8) = encode i ∧ bytes.drop 8 = rest := by
  rw [← decodeWord_eq_ok_iff]
  unfold decodeBytes
  by_cases hlen : bytes.length < 8
  · rw [if_pos hlen]
    exact ⟨nofun, fun h => absurd h.1 (Nat.not_le.2 hlen)⟩
  · rw [if_neg hlen]
    cases decodeWord (wordOfBytes (bytes.take 8)) <;> simp [Nat.not_lt.1 hlen]

theorem decodeBytes_encodeBytes_append (i : Instr) (rest : List Byte) :
    decodeBytes (encodeBytes i ++ rest) = .ok (i, rest) := by
  have hlen : (encodeBytes i).length = 8 := le64_length _
  rw [decodeBytes_eq_ok_iff, List.take_left' hlen, List.drop_left' hlen, List.length_append]
  exact ⟨by omega, wordOfBytes_le64 _, rfl⟩

theorem eq_encodeBytes_append_of_decodeBytes {bytes rest : List Byte} {i : Instr}
    (h : decodeBytes bytes = .ok (i, rest)) : bytes = encodeBytes i ++ rest := by
  obtain ⟨hlen, hword, rfl⟩ := (decodeBytes_eq_ok_iff bytes rest i).1 h
  have hhead : encodeBytes i = bytes.take 8 := by
    rw [encodeBytes, ← hword, le64_wordOfBytes (List.length_take_of_le hlen)]
  rw [hhead, List.take_append_drop]

end Sys2Proof

namespace Sys2Proof.Machine

/-- Settles O3: eight bytes and the word they spell determine each other, and so do the word and its command. -/
theorem decodeEncodeAgreeOnBytes : Obligations.DecodeEncodeAgreeOnBytes :=
  ⟨decodeBytes_encodeBytes_append, fun _ _ _ => eq_encodeBytes_append_of_decodeBytes⟩

/-! ### A command write (R52, R55) -/

/-- Settles O33: every command is run by `runCommand`, which ignores it while faulted. -/
theorem faultedCommandsAreIgnored : Obligations.FaultedCommandsAreIgnored := fun i s hs => by
  rw [exec_eq]; exact runCommand_of_faulted _ s hs

/-- In any unit the write of a command's word runs that command, where the command itself is ignored while faulted. -/
theorem cmdWord_exec_of_ok {w : Word} {i : Instr} (s : State) (h : decodeWord w = .ok i) :
    cmdWord exec w s = exec i s := by
  by_cases hs : s.pgu.err = none
  · rw [cmdWord, if_neg (by simp [(not_faulted_eq s.pgu).2 hs]), h]
  · rw [cmdWord_of_faulted exec w hs, faultedCommandsAreIgnored i s hs]

/-- Settles O1: 0x3 and 0x13 are the words of OFFSET and CHECK; the other three are rejected by the decoder, one for
its ZERO field and two for their opcode. -/
theorem decodingExamples : Obligations.DecodingExamples := fun s hs =>
  ⟨cmdWord_exec_of_ok s rfl, cmdWord_of_error exec hs rfl, cmdWord_of_error exec hs rfl, cmdWord_of_error exec hs rfl,
    cmdWord_exec_of_ok s rfl⟩

/-- Settles O5: the step is the queue's first line, a write to CMD, and that write runs the decoded command. -/
theorem stepRunsTheDecodedCommand : Obligations.StepRunsTheDecodedCommand := by
  intro s w rest i hscript hdec _
  rw [step_of_line s _ rest hscript]
  exact cmdWord_exec_of_ok (s.popScript rest) hdec

/-- Settles O6: with an empty queue the step is the host's next move, which keeps the device, and which is no move at
all without a run. -/
theorem unitWaitsForTheHost : Obligations.UnitWaitsForTheHost := by
  intro s hscript
  obtain ⟨hdev, hsize, -⟩ := nextMove_keeps s.host
  rw [step_of_empty s hscript]
  refine ⟨⟨s.host.nextMove, rfl, hdev, hsize⟩, fun hphase => ?_⟩
  have hstay : s.host.nextMove = s.host := by
    unfold HostSide.nextMove
    rcases hphase with hidle | ⟨e, hended⟩
    · rw [hidle]
    · rw [hended]
  rw [State.mapHost, hstay]

end Sys2Proof.Machine
end

section
/-! PROOFS. AES-128: the two substitution tables undo each other and are the algebraic S-box (spec/42_xts_aes128.md R153
to R155), `MixColumns` is undone because `xtime` is linear (R152, R157), and so decryption and encryption undo each
other (R160, R161). -/

namespace Sys2Proof.Machine

/-! ### The substitution tables (R153 to R155) -/

theorem invSbox_sbox (a : Byte) : invSbox (sbox a) = a := by
  revert a; decide +kernel

theorem sbox_invSbox (a : Byte) : sbox (invSbox a) = a := by
  revert a; decide +kernel

/-- The inverse of the affine map of R153: what it undoes is the inverse in GF(2^8). -/
def invAffine (s : Byte) : Byte := s.rotateLeft 1 ^^^ s.rotateLeft 3 ^^^ s.rotateLeft 6 ^^^ 0x05#8

/-- The affine map of R153. -/
def affine (b : Byte) : Byte :=
  b ^^^ b.rotateLeft 1 ^^^ b.rotateLeft 2 ^^^ b.rotateLeft 3 ^^^ b.rotateLeft 4 ^^^ 0x63#8

theorem affine_invAffine (s : Byte) : affine (invAffine s) = s := by
  revert s; decide +kernel

/-- Taking the affine map off the table's entry leaves the inverse in GF(2^8), 0 for 0. -/
theorem gmul_invAffine_sbox (a : Byte) :
    (a = 0#8 ∧ invAffine (sbox a) = 0#8) ∨ gmul a (invAffine (sbox a)) = 1#8 := by
  revert a; decide +kernel

/-- Settles O28: the inverse is found by undoing the affine map. -/
theorem sboxIsTheAlgebraicOne : Obligations.SboxIsTheAlgebraicOne := fun a =>
  ⟨invSbox_sbox a, invAffine (sbox a), gmul_invAffine_sbox a, (affine_invAffine (sbox a)).symm⟩

/-- Settles O27, by running the model on the five examples. -/
theorem publishedCipherVectors : Obligations.PublishedCipherVectors := by
  unfold Obligations.PublishedCipherVectors; decide +kernel

/-! ### Exclusive-or of bytes, columns and blocks -/

theorem xor_xor_self {n : Nat} (a b : BitVec n) : a ^^^ b ^^^ b = a := by
  rw [BitVec.xor_assoc, BitVec.xor_self, BitVec.xor_zero]

theorem xor_self_xor {n : Nat} (a b : BitVec n) : a ^^^ (a ^^^ b) = b := by
  rw [← BitVec.xor_assoc, BitVec.xor_self, BitVec.zero_xor]

theorem xor_left_comm {n : Nat} (a b c : BitVec n) : a ^^^ (b ^^^ c) = b ^^^ (a ^^^ c) := by ac_rfl

@[simp] theorem Column.xor_xor_self (x k : Column) : (x.xor k).xor k = x := by
  simp only [Column.xor, Machine.xor_xor_self]

/-- `AddRoundKey` undoes itself (R158). -/
@[simp] theorem Block.xor_xor_self (x k : Block) : (x.xor k).xor k = x := by
  simp only [Block.xor, Column.xor_xor_self]

/-! ### Multiplication in GF(2^8) is linear (R152) -/

theorem xtime_eq (a : Byte) : xtime a = (a <<< 1) ^^^ (if a.msb then 0x1b#8 else 0#8) := by
  revert a; decide +kernel

theorem xtime_xor (a b : Byte) : xtime (a ^^^ b) = xtime a ^^^ xtime b := by
  simp only [xtime_eq, BitVec.shiftLeft_xor_distrib, BitVec.msb_xor]
  cases a.msb <;> cases b.msb <;> simp [BitVec.xor_assoc, BitVec.xor_comm, xor_left_comm]

theorem xtimes_xor (i : Nat) (a b : Byte) : xtimes i (a ^^^ b) = xtimes i a ^^^ xtimes i b := by
  induction i with
  | zero => rfl
  | succ i ih => rw [xtimes, ih, xtime_xor, xtimes, xtimes]

/-- The sum of `gmul` over any bits `is` of the coefficient, from any two partial sums. -/
theorem foldl_xtimes_xor (k a b : Byte) (is : List Nat) (u v : Byte) :
    is.foldl (fun acc i => if k.getLsbD i then acc ^^^ xtimes i (a ^^^ b) else acc) (u ^^^ v) =
      is.foldl (fun acc i => if k.getLsbD i then acc ^^^ xtimes i a else acc) u ^^^
        is.foldl (fun acc i => if k.getLsbD i then acc ^^^ xtimes i b else acc) v := by
  induction is generalizing u v with
  | nil => rfl
  | cons i is ih =>
    have hacc : (if k.getLsbD i then u ^^^ v ^^^ xtimes i (a ^^^ b) else u ^^^ v) =
        (if k.getLsbD i then u ^^^ xtimes i a else u) ^^^ (if k.getLsbD i then v ^^^ xtimes i b else v) := by
      split
      · rw [xtimes_xor]; ac_rfl
      · rfl
    rw [List.foldl_cons, hacc, ih]; rfl

theorem gmul_xor (a b k : Byte) : gmul (a ^^^ b) k = gmul a k ^^^ gmul b k :=
  foldl_xtimes_xor k a b (List.range 8) 0#8 0#8

/-! ### `MixColumns` (R157) -/

theorem xtime_zero : xtime 0#8 = 0#8 := rfl

theorem gmul_one (a : Byte) : gmul a 1 = a := by revert a; decide +kernel

theorem gmul_two (a : Byte) : gmul a 2 = xtime a := by revert a; decide +kernel

theorem gmul_three (a : Byte) : gmul a 3 = a ^^^ xtime a := by revert a; decide +kernel

theorem gmul_nine (a : Byte) : gmul a 9 = a ^^^ xtime (xtime (xtime a)) := by revert a; decide +kernel

theorem gmul_eleven (a : Byte) : gmul a 11 = a ^^^ xtime a ^^^ xtime (xtime (xtime a)) := by revert a; decide +kernel

theorem gmul_thirteen (a : Byte) : gmul a 13 = a ^^^ xtime (xtime a) ^^^ xtime (xtime (xtime a)) := by
  revert a; decide +kernel

theorem gmul_fourteen (a : Byte) : gmul a 14 = xtime a ^^^ xtime (xtime a) ^^^ xtime (xtime (xtime a)) := by
  revert a; decide +kernel

theorem Column.dot_xor (k0 k1 k2 k3 : Byte) (x y : Column) :
    (x.xor y).dot k0 k1 k2 k3 = x.dot k0 k1 k2 k3 ^^^ y.dot k0 k1 k2 k3 := by
  simp only [Column.dot, Column.xor, gmul_xor]; ac_rfl

theorem mixColumn_xor (x y : Column) : mixColumn (x.xor y) = (mixColumn x).xor (mixColumn y) := by
  simp only [mixColumn, Column.dot_xor]; rfl

theorem invMixColumn_xor (x y : Column) : invMixColumn (x.xor y) = (invMixColumn x).xor (invMixColumn y) := by
  simp only [invMixColumn, Column.dot_xor]; rfl

/-- A column whose row `r` holds `a` and whose other rows hold 0. -/
def singleRow (r : Fin 4) (a : Byte) : Column :=
  match r with
  | 0 => ⟨a, 0#8, 0#8, 0#8⟩
  | 1 => ⟨0#8, a, 0#8, 0#8⟩
  | 2 => ⟨0#8, 0#8, a, 0#8⟩
  | 3 => ⟨0#8, 0#8, 0#8, a⟩

theorem eq_xor_singleRows (x : Column) :
    x = (((singleRow 0 x.r0).xor (singleRow 1 x.r1)).xor (singleRow 2 x.r2)).xor (singleRow 3 x.r3) := by
  simp [Column.xor, singleRow]

/-- A linear map that leaves the columns with one non-zero row as they are leaves every column as it is. -/
theorem eq_self_of_linear {f : Column → Column} (hxor : ∀ x y, f (x.xor y) = (f x).xor (f y))
    (hsingle : ∀ r a, f (singleRow r a) = singleRow r a) (x : Column) : f x = x := by
  rw [eq_xor_singleRows x, hxor, hxor, hxor]; simp only [hsingle]



/-- Over `xtime` the two coefficient matrices multiply to the identity: the other terms cancel in pairs. -/
theorem mixColumn_inverse_on_singleRow (r : Fin 4) (a : Byte) :
    invMixColumn (mixColumn (singleRow r a)) = singleRow r a ∧
      mixColumn (invMixColumn (singleRow r a)) = singleRow r a := by
  fin_cases r <;> constructor <;>
    simp only [singleRow, mixColumn, invMixColumn, Column.dot, xtime_zero, BitVec.xor_zero, BitVec.zero_xor,
      gmul_one, gmul_two, gmul_three, gmul_nine, gmul_eleven, gmul_thirteen, gmul_fourteen, xtime_xor] <;>
    simp only [BitVec.xor_assoc, BitVec.xor_comm, xor_left_comm, BitVec.xor_self, xor_self_xor, BitVec.xor_zero]

theorem invMixColumn_mixColumn (x : Column) : invMixColumn (mixColumn x) = x :=
  eq_self_of_linear (f := fun x => invMixColumn (mixColumn x))
    (fun x y => by simp only [mixColumn_xor, invMixColumn_xor]) (fun r a => (mixColumn_inverse_on_singleRow r a).1) x

theorem mixColumn_invMixColumn (x : Column) : mixColumn (invMixColumn x) = x :=
  eq_self_of_linear (f := fun x => mixColumn (invMixColumn x))
    (fun x y => by simp only [mixColumn_xor, invMixColumn_xor]) (fun r a => (mixColumn_inverse_on_singleRow r a).2) x

@[simp] theorem invMixColumns_mixColumns (s : Block) : invMixColumns (mixColumns s) = s := by
  simp only [invMixColumns, mixColumns, Block.mapColumns, invMixColumn_mixColumn]

@[simp] theorem mixColumns_invMixColumns (s : Block) : mixColumns (invMixColumns s) = s := by
  simp only [invMixColumns, mixColumns, Block.mapColumns, mixColumn_invMixColumn]

/-! ### The other steps of a round (R156) -/

@[simp] theorem invSubBytes_subBytes (s : Block) : invSubBytes (subBytes s) = s := by
  simp only [invSubBytes, subBytes, Block.mapColumns, Column.map, invSbox_sbox]

@[simp] theorem subBytes_invSubBytes (s : Block) : subBytes (invSubBytes s) = s := by
  simp only [invSubBytes, subBytes, Block.mapColumns, Column.map, sbox_invSbox]

@[simp] theorem invShiftRows_shiftRows (s : Block) : invShiftRows (shiftRows s) = s := rfl

@[simp] theorem shiftRows_invShiftRows (s : Block) : shiftRows (invShiftRows s) = s := rfl

/-! ### The rounds (R160, R161) -/

theorem decRounds_encRounds (ks : List Block) (s : Block) : decRounds ks (encRounds ks s) = s := by
  induction ks, s using encRounds.induct with
  | case1 s => rfl
  | case2 k s => simp [encRounds, decRounds]
  | case3 k rest s hrest ih => simp [encRounds, decRounds, ih]

theorem encRounds_decRounds (ks : List Block) (s : Block) : encRounds ks (decRounds ks s) = s := by
  induction ks, s using decRounds.induct with
  | case1 s => rfl
  | case2 k s => simp [encRounds, decRounds]
  | case3 k rest s hrest ih => simp [encRounds, decRounds, ih]

@[simp] theorem aesDec_aesEnc (k p : Block) : aesDec k (aesEnc k p) = p := by
  rw [aesDec, aesEnc, decRounds_encRounds, Block.xor_xor_self]

@[simp] theorem aesEnc_aesDec (k c : Block) : aesEnc k (aesDec k c) = c := by
  rw [aesDec, aesEnc, Block.xor_xor_self, encRounds_decRounds]

/-- Settles O29: each step of a round is undone by its inverse, in reverse order. -/
theorem aesDecryptionInvertsEncryption : Obligations.AesDecryptionInvertsEncryption := fun k p =>
  ⟨aesDec_aesEnc k p, aesEnc_aesDec k p⟩

end Sys2Proof.Machine
end

section
/-! PROOFS. XTS over AES-128, cipher block by cipher block (spec/42_xts_aes128.md R164, R165): the laws of the parameter
`TBC` (spec/41_pattern_engine.md R86, R87, R89), locality (R168), and where corrupted data shows (R169). -/

namespace Sys2Proof

theorem Tbc.inDomain.mod_eq_zero {cap n : Nat} (h : Tbc.inDomain cap n) : n % 16 = 0 := h.2.1

theorem Tbc.inDomain.le_cap {cap n : Nat} (h : Tbc.inDomain cap n) : n ≤ cap := h.2.2

end Sys2Proof

namespace Sys2Proof.Machine

/-! ### Blocks as byte strings (R151) -/

theorem Block.ofBytes_toBytes_append (x : Block) (rest : List Byte) : Block.ofBytes (x.toBytes ++ rest) = x := rfl

/-- A block is made of the first 16 bytes of the string alone. -/
theorem Block.ofBytes_take (s : List Byte) {n : Nat} (h : 16 ≤ n) : Block.ofBytes (s.take n) = Block.ofBytes s := by
  have hbyte {i : Nat} (hi : i < 16) : byteAt (s.take n) i = byteAt s i := by
    rw [byteAt, byteAt, List.getD_eq_getElem?_getD, List.getD_eq_getElem?_getD, List.getElem?_take_of_lt (by omega)]
  simp [Block.ofBytes, Column.ofBytes, hbyte]

theorem Block.toBytes_ofBytes {s : List Byte} (h : 16 ≤ s.length) : (Block.ofBytes s).toBytes = s.take 16 := by
  match s, h with
  | _ :: _ :: _ :: _ :: _ :: _ :: _ :: _ :: _ :: _ :: _ :: _ :: _ :: _ :: _ :: _ :: rest, _ => rfl

/-! ### The cipher blocks of a sector (R164, R165) -/

/-- The mask of cipher block `j`, from that of block 0 (R163). -/
def maskAt : Nat → Block → Block
  | 0, t => t
  | j + 1, t => maskAt j (mulAlpha t)

/-- What becomes of one cipher block under its mask. -/
def maskedBlock (f : Block → Block) (t x : Block) : Block := (f (x.xor t)).xor t

theorem xtsBlocks_succ (f : Block → Block) (m : Nat) (t : Block) (s : List Byte) :
    xtsBlocks f (m + 1) t s =
      (maskedBlock f t (Block.ofBytes s)).toBytes ++ xtsBlocks f m (mulAlpha t) (s.drop 16) := rfl

/-- Where `g` undoes `f`, it does so on each masked block and on a sector of whole cipher blocks. -/
theorem xtsBlocks_inverse {f g : Block → Block} (hgf : ∀ x, g (f x) = x) (m : Nat) (t : Block) {s : List Byte}
    (h : s.length = 16 * m) : xtsBlocks g m t (xtsBlocks f m t s) = s := by
  induction m generalizing t s with
  | zero =>
    obtain rfl : s = [] := List.eq_nil_of_length_eq_zero h
    rfl
  | succ m ih =>
    have hblock (x : Block) : maskedBlock g t (maskedBlock f t x) = x := by simp [maskedBlock, hgf]
    have hrest : (s.drop 16).length = 16 * m := by rw [List.length_drop]; omega
    rw [xtsBlocks_succ f, xtsBlocks_succ g, Block.ofBytes_toBytes_append, hblock,
      List.drop_left' (Block.toBytes_length _), ih _ hrest, Block.toBytes_ofBytes (by omega), List.take_append_drop]

/-- The first `k` cipher blocks of the output are the output of the first `k` cipher blocks. -/
theorem take_xtsBlocks (f : Block → Block) {k m : Nat} (hkm : k ≤ m) (t : Block) (s : List Byte) :
    (xtsBlocks f m t s).take (16 * k) = xtsBlocks f k t (s.take (16 * k)) := by
  induction k generalizing m t s with
  | zero => simp [xtsBlocks]
  | succ k ih =>
    obtain ⟨m, rfl⟩ : ∃ m', m = m' + 1 := ⟨m - 1, by omega⟩
    have hlen (x : Block) : 16 * (k + 1) = x.toBytes.length + 16 * k := by rw [Block.toBytes_length]; omega
    have hdrop : (s.take (16 * (k + 1))).drop 16 = (s.drop 16).take (16 * k) := by
      rw [List.drop_take]; congr 1
    rw [xtsBlocks_succ, xtsBlocks_succ, Block.ofBytes_take s (by omega), hdrop, ← ih (m := m) (by omega), hlen,
      List.take_length_add_append]

/-- Cipher block `j` of the output is the `j`-th masked block of the input. -/
theorem xtsBlocks_block (f : Block → Block) {j m : Nat} (hjm : j < m) (t : Block) (s : List Byte) :
    ((xtsBlocks f m t s).drop (16 * j)).take 16 =
      (maskedBlock f (maskAt j t) (Block.ofBytes ((s.drop (16 * j)).take 16))).toBytes := by
  induction j generalizing m t s with
  | zero =>
    obtain ⟨m, rfl⟩ : ∃ m', m = m' + 1 := ⟨m - 1, by omega⟩
    rw [Block.ofBytes_take _ le_rfl]
    exact List.take_left' (Block.toBytes_length _)
  | succ j ih =>
    obtain ⟨m, rfl⟩ : ∃ m', m = m' + 1 := ⟨m - 1, by omega⟩
    rw [xtsBlocks_succ, show 16 * (j + 1) = 16 + 16 * j by omega, ← List.drop_drop,
      List.drop_left' (Block.toBytes_length _), ih (by omega), List.drop_drop]
    rfl

/-! ### The laws of the cipher pair (R86, R87, R89) -/

/-- T2, first equation: on whole cipher blocks decryption undoes encryption. -/
theorem xtsDec_xtsEnc (k1 k2 t : List Byte) {s : List Byte} (h : s.length % 16 = 0) :
    xtsDec k1 k2 t (xtsEnc k1 k2 t s) = s := by
  rw [xtsDec, xtsEnc_length]
  exact xtsBlocks_inverse (aesDec_aesEnc _) _ _ (by omega)

/-- T2, second equation. -/
theorem xtsEnc_xtsDec (k1 k2 t : List Byte) {s : List Byte} (h : s.length % 16 = 0) :
    xtsEnc k1 k2 t (xtsDec k1 k2 t s) = s := by
  rw [xtsEnc, xtsDec_length]
  exact xtsBlocks_inverse (aesEnc_aesDec _) _ _ (by omega)

/-- T4 for either direction: it commutes with taking whole cipher blocks off the front. -/
theorem take_xtsBlocks_of_length (f : Block → Block) (t : Block) {s : List Byte} {n : Nat} (hn : n % 16 = 0)
    (hle : n ≤ s.length) :
    (xtsBlocks f (s.length / 16) t s).take n = xtsBlocks f ((s.take n).length / 16) t (s.take n) := by
  have hmul : 16 * (n / 16) = n := by omega
  have htake := take_xtsBlocks f (k := n / 16) (Nat.div_le_div_right hle) t s
  rw [List.length_take_of_le hle]
  rwa [hmul] at htake

/-- Settles O30: T1 holds at every length, T2 and T4 on whole cipher blocks, whatever the upper end of the domain. -/
theorem xtsObeysTheCipherLaws : Obligations.XtsObeysTheCipherLaws := fun _ =>
  { enc_length := fun k1 k2 t s _ _ _ _ => xtsEnc_length k1 k2 t s
    dec_length := fun k1 k2 t s _ _ _ _ => xtsDec_length k1 k2 t s
    dec_enc := fun k1 k2 t _ _ _ _ hs => xtsDec_xtsEnc k1 k2 t hs.mod_eq_zero
    enc_dec := fun k1 k2 t _ _ _ _ hs => xtsEnc_xtsDec k1 k2 t hs.mod_eq_zero
    enc_take := fun _ _ _ _ _ _ _ _ _ hm hle => take_xtsBlocks_of_length _ _ hm.mod_eq_zero hle
    dec_take := fun _ _ _ _ _ _ _ _ _ hm hle => take_xtsBlocks_of_length _ _ hm.mod_eq_zero hle }

/-- The default parameters are valid (spec/00_scope.md R6). -/
theorem standard_valid : Config.standard.Valid :=
  { cap_mul := by decide, cap_min := by decide, lawful := xtsObeysTheCipherLaws _, exit_ne_zero := by decide,
    exit_ne_two := by decide }

/-! ### Locality (R168) -/

/-- Cipher block `j` of a byte string. -/
def cipherBlock (s : List Byte) (j : Nat) : List Byte := (s.drop (16 * j)).take 16

/-- For either direction: equal cipher blocks of the input give equal cipher blocks of the output. -/
theorem xtsBlocks_local (f : Block → Block) (t : Block) {s s' : List Byte} {j : Nat} (hlen : s.length = s'.length)
    (hj : 16 * j + 16 ≤ s.length) (h : cipherBlock s j = cipherBlock s' j) :
    cipherBlock (xtsBlocks f (s.length / 16) t s) j = cipherBlock (xtsBlocks f (s'.length / 16) t s') j := by
  have hjm : j < s.length / 16 := by omega
  unfold cipherBlock at h ⊢
  rw [← hlen, xtsBlocks_block f hjm, xtsBlocks_block f hjm, h]

/-- Settles O31: each cipher block of the output is a function of its number, the mask and that block of the input. -/
theorem xtsIsLocal : Obligations.XtsIsLocal := fun _ _ _ _ _ _ hlen _ hj h =>
  ⟨xtsBlocks_local _ _ hlen hj h, xtsBlocks_local _ _ hlen hj h⟩

/-! ### Where corrupted data shows (R169) -/

theorem cipherBlock_getElem? (s : List Byte) (j e : Nat) (he : e < 16) : (cipherBlock s j)[e]? = s[16 * j + e]? := by
  rw [cipherBlock, List.getElem?_take_of_lt he, List.getElem?_drop]

/-- Two strings have equal cipher blocks `j` exactly when they agree at each index of it. -/
theorem cipherBlock_eq_iff (s s' : List Byte) (j : Nat) :
    cipherBlock s j = cipherBlock s' j ↔ ∀ e < 16, s[16 * j + e]? = s'[16 * j + e]? := by
  constructor
  · intro h e he
    rw [← cipherBlock_getElem? s j e he, ← cipherBlock_getElem? s' j e he, h]
  · intro h
    apply List.ext_getElem?
    intro e
    by_cases he : e < 16
    · rw [cipherBlock_getElem? s j e he, cipherBlock_getElem? s' j e he, h e he]
    · simp [cipherBlock, he]

/-- Between data and pattern of one length, cipher blocks that agree are those that decrypt to what the pattern does. -/
theorem cipherBlock_xtsDec_eq_iff (k1 k2 t : List Byte) {r s : List Byte} {j : Nat} (hr : r.length % 16 = 0)
    (hlen : r.length = s.length) (hj : 16 * j + 16 ≤ r.length) :
    cipherBlock (xtsDec k1 k2 t r) j = cipherBlock s j ↔ cipherBlock r j = cipherBlock (xtsEnc k1 k2 t s) j := by
  have hs : s.length % 16 = 0 := hlen ▸ hr
  constructor
  · intro h
    have henc := xtsBlocks_local (aesEnc (Block.ofBytes k1)) (tweakStart k2 t)
      ((xtsDec_length k1 k2 t r).trans hlen) (by rwa [xtsDec_length]) h
    exact (congrArg (cipherBlock · j) (xtsEnc_xtsDec k1 k2 t hr)).symm.trans henc
  · intro h
    have hdec := xtsBlocks_local (aesDec (Block.ofBytes k1)) (tweakStart k2 t)
      (hlen.trans (xtsEnc_length k1 k2 t s).symm) hj h
    exact hdec.trans (congrArg (cipherBlock · j) (xtsDec_xtsEnc k1 k2 t hs))

theorem zeros_getElem? {n i : Nat} (h : i < n) : (zeros n)[i]? = some 0#8 := by
  rw [zeros, List.getElem?_replicate_of_lt h]

/-- If cipher block `q` is the first that is not all zero, the first non-zero byte is one of it. -/
theorem firstNonZero_in_cipherBlock {s : List Byte} {q : Nat} (hq : 16 * q + 16 ≤ s.length)
    (hbefore : ∀ j < q, cipherBlock s j = cipherBlock (zeros s.length) j)
    (hne : cipherBlock s q ≠ cipherBlock (zeros s.length) q) : ∃ e < 16, firstNonZero s = some (16 * q + e) := by
  cases hscan : firstNonZero s with
  | none =>
    refine absurd ((cipherBlock_eq_iff _ _ _).2 fun e he => ?_) hne
    rw [zeros_getElem? (by omega), List.getElem?_eq_getElem (by omega)]
    exact congrArg some ((firstNonZero_none s).1 hscan _ (List.getElem_mem _))
  | some i =>
    obtain ⟨⟨b, hb, hb0⟩, hzero⟩ := (firstNonZero_some s i).1 hscan
    have hi : i < s.length := (List.getElem?_eq_some_iff.1 hb).1
    have hlow : 16 * q ≤ i := by
      by_contra hlt
      have hblock := (cipherBlock_eq_iff _ _ _).1 (hbefore (i / 16) (by omega)) (i % 16) (by omega)
      rw [Nat.div_add_mod, hb, zeros_getElem? hi] at hblock
      exact hb0 (Option.some.inj hblock)
    have hhigh : i < 16 * q + 16 := by
      by_contra hge
      refine hne ((cipherBlock_eq_iff _ _ _).2 fun e he => ?_)
      rw [hzero _ (by omega), zeros_getElem? (by omega)]
    exact ⟨i - 16 * q, by omega, by congr 1; omega⟩

/-- Settles O32: the cipher blocks before the first corrupted one decrypt to zeros as the pattern's do, and that one
does not. -/
theorem corruptionShowsInItsCipherBlock : Obligations.CorruptionShowsInItsCipherBlock := by
  rintro k1 k2 t r pattern c hr rfl hc hne hsame
  have hlen : r.length = (zeros r.length).length := (zeros_length _).symm
  have hblock {j : Nat} (hj : 16 * j + 16 ≤ r.length) := cipherBlock_xtsDec_eq_iff k1 k2 t hr hlen hj
  have hq : 16 * (c / 16) + 16 ≤ r.length := by omega
  apply firstNonZero_in_cipherBlock
  all_goals rw [xtsDec_length]
  · exact hq
  · intro j hj
    exact (hblock (by omega)).2 ((cipherBlock_eq_iff _ _ _).2 fun e he => hsame _ (by omega))
  · intro hdec
    have hagree := (cipherBlock_eq_iff _ _ _).1 ((hblock hq).1 hdec) (c % 16) (by omega)
    rw [Nat.div_add_mod] at hagree
    exact hne hagree

end Sys2Proof.Machine
end

section
/-! PROOFS. What each command can do to the unit, said once, and the frames that follow from it
(spec/40_block_range.md R68, spec/41_pattern_engine.md R81 to R83, R91). -/

namespace Sys2Proof.Machine

/-! ### What a command can do -/

/-- What a command makes of the unit `p`: it raises a code (E_MISMATCH is CHECK's alone), or stores its own result,
under the checks that it has passed; CHECK stores none. -/
inductive Pgu.Outcome (cfg : Config) (p : Pgu) : Instr → Pgu → Prop where
  | raised (i : Instr) {e : ErrCode} (he : e ≠ .mismatch) : Outcome cfg p i (p.raise e)
  | sizeChosen (hok : ¬ p.badSize p.chosenSize = true) (hcap : p.chosenSize ≤ cfg.bufCap) :
      Outcome cfg p .choose (p.setBlockSize p.chosenSize)
  | counted (hd : p.diskSize.toNat ≠ 0) (hb : p.blockSize.toNat ≠ 0) :
      Outcome cfg p .count (p.setBlockCount (countFn p.diskSize.toNat p.blockSize.toNat))
  | rangeSet (hb : p.blockSize.toNat ≠ 0) (hi : p.index.toNat * p.blockSize.toNat < p.diskSize.toNat) :
      Outcome cfg p .offset (p.setRange (p.index.toNat * p.blockSize.toNat)
        (min (p.index.toNat * p.blockSize.toNat + p.blockSize.toNat - 1) (p.diskSize.toNat - 1)))
  | startFound (hb : p.blockSize.toNat ≠ 0) (ho : p.startOffset.toNat < p.diskSize.toNat) :
      Outcome cfg p .startblk (p.setStartBlock (p.startOffset.toNat / p.blockSize.toNat))
  | zeroed (hb : p.blockSize.toNat ≠ 0) : Outcome cfg p .zero (p.bufWrite 0 (zeros p.blockSize.toNat))
  | filled (hb : p.blockSize.toNat ≠ 0) (hk : p.keyValid = true) : Outcome cfg p .fill (p.bufWrite 0
      (cfg.tbc.enc p.subKey1 p.subKey2 (tweakBytes cfg) (p.bufRead 0 p.blockSize.toNat)))
  | inverted (hb : p.blockSize.toNat ≠ 0) (hk : p.keyValid = true) (hl : ¬ p.badLen = true) :
      Outcome cfg p .invert (p.bufWrite 0 (cfg.tbc.dec p.subKey1 p.subKey2 (tweakBytes cfg) (p.bufRead 0 p.len.toNat)))
  | mismatched {i0 : Nat} (hl : p.len.toNat ≠ 0) (hscan : firstNonZero (p.bufRead 0 p.len.toNat) = some i0) :
      Outcome cfg p .check (p.raiseMismatch (p.start.toNat + i0))
  | passed (hl : p.len.toNat ≠ 0) (hscan : firstNonZero (p.bufRead 0 p.len.toNat) = none) : Outcome cfg p .check p

theorem offset_outcome (cfg : Config) (p : Pgu) : p.Outcome cfg .offset p.offset := by
  by_cases hb : p.blockSize.toNat = 0
  · rw [Pgu.offset, if_pos hb]; exact .raised _ nofun
  · by_cases hi : p.index.toNat * p.blockSize.toNat < p.diskSize.toNat
    · rw [offset_of_inRange hb hi]; exact .rangeSet hb hi
    · rw [Pgu.offset, if_neg hb, offsetFn_of_le (Nat.not_lt.1 hi)]; exact .raised _ nofun

/-- Every command does one of the things listed for it. -/
theorem commandEffect_outcome (cfg : Config) (i : Instr) (p : Pgu) : p.Outcome cfg i (commandEffect cfg i p) := by
  cases i <;> dsimp only [commandEffect]
  case choose =>
    unfold Pgu.choose; split_ifs with hd hbad hcap
    exacts [.raised _ nofun, .raised _ nofun, .raised _ nofun, .sizeChosen hbad (Nat.not_lt.1 hcap)]
  case count =>
    unfold Pgu.count; split_ifs with hd hb
    exacts [.raised _ nofun, .raised _ nofun, .counted hd hb]
  case offset => exact offset_outcome cfg p
  case startblk =>
    unfold Pgu.startblk; split_ifs with hb ho
    exacts [.raised _ nofun, .raised _ nofun, .startFound hb (Nat.not_le.1 ho)]
  case zero =>
    unfold Pgu.zero; split_ifs with hb
    exacts [.raised _ nofun, .zeroed hb]
  case fill =>
    unfold Pgu.fill; split_ifs with hb hk
    exacts [.raised _ nofun, .raised _ nofun, .filled hb (by simpa using hk)]
  case invert =>
    unfold Pgu.invert; split_ifs with hb hk hl
    exacts [.raised _ nofun, .raised _ nofun, .raised _ nofun, .inverted hb (by simpa using hk) hl]
  case check =>
    unfold Pgu.check; split_ifs with hl
    · exact .raised _ nofun
    · split
      · next hscan => exact .mismatched hl hscan
      · next hscan => exact .passed hl hscan

/-- In a not-faulted state a command moves the unit as listed, and nothing else. -/
theorem exec_outcome_of_clean {i : Instr} {s t : State} (hs : s.clean) (h : exec i s = .next t) :
    t.host = s.host ∧ s.pgu.Outcome Config.standard i t.pgu := by
  rw [exec_of_clean hs rfl] at h
  cases h
  exact ⟨rfl, commandEffect_outcome _ i s.pgu⟩

/-- A command that answers a next state moves the unit alone, and moves it only while it is not faulted. -/
theorem exec_outcome {i : Instr} {s t : State} (h : exec i s = .next t) :
    t.host = s.host ∧ (t.pgu = s.pgu ∨ s.pgu.Outcome Config.standard i t.pgu) := by
  by_cases hs : s.pgu.err = none
  · obtain ⟨hhost, hout⟩ := exec_outcome_of_clean hs h
    exact ⟨hhost, .inr hout⟩
  · cases (faultedCommandsAreIgnored i s hs).symm.trans h
    exact ⟨rfl, .inl rfl⟩

/-! ### Frames -/

/-- Raising moves ERR alone, in any unit. -/
theorem raise_eq (p : Pgu) (e : ErrCode) : p.raise e = { p with err := (p.raise e).err } := by
  unfold Pgu.raise; split <;> rfl

theorem raiseMismatch_eq (p : Pgu) (off : Nat) :
    p.raiseMismatch off = { p with err := (p.raiseMismatch off).err, badOff := (p.raiseMismatch off).badOff } := by
  unfold Pgu.raiseMismatch; split <;> rfl

/-- Settles O12: each of the four commands raises, or stores in its own result registers. -/
theorem blockRangeFrame : Obligations.BlockRangeFrame := by
  intro i s t hi h
  obtain ⟨hhost, hmove⟩ := exec_outcome h
  refine ⟨hhost, (fun hregs => ⟨hregs, bufByte_congr (by rw [hregs]) (by rw [hregs])⟩) ?regs⟩
  case regs =>
    rcases hmove with hkept | hout
    · rw [hkept]; simp
    · generalize t.pgu = q at hout
      cases hout with
      | raised => rw [raise_eq]; simp
      | sizeChosen | counted | rangeSet | startFound => rfl
      | zeroed | filled | inverted | mismatched | passed => simp at hi

/-- A byte string of `n` bytes stored at the start of BUF leaves the bytes from `n` on. -/
theorem bufByte_bufWrite_from (p : Pgu) {data : List Byte} {n a : Nat} (hlen : data.length = n) (ha : n ≤ a) :
    (p.bufWrite 0 data).bufByte a = p.bufByte a :=
  (bufWrite_prefix p hlen).2 a ha

/-- Settles O22: each of the four commands raises, or stores a byte string of its own length at the start of BUF; CHECK
stores none. -/
theorem engineFrame : Obligations.EngineFrame := by
  intro i s t hi h
  obtain ⟨hhost, hmove⟩ := exec_outcome h
  refine ⟨hhost, ?regs, fun a ha => ?bytes⟩ <;> rcases hmove with hkept | hout
  case regs.inl => rw [hkept]; simp
  case regs.inr =>
    generalize t.pgu = q at hout
    cases hout with
    | raised => rw [raise_eq]; simp
    | mismatched => rw [raiseMismatch_eq]; simp
    | zeroed | filled | inverted | passed => rfl
    | sizeChosen | counted | rangeSet | startFound => simp at hi
  case bytes.inl => rw [hkept]
  case bytes.inr =>
    generalize t.pgu = q at hout
    cases hout with
    | raised => exact bufByte_raise s.pgu _ a
    | mismatched => exact bufByte_congr (raiseMismatch_buf s.pgu _) (raiseMismatch_epoch s.pgu _) a
    | zeroed => exact bufByte_bufWrite_from s.pgu (zeros_length _) ha
    | filled => exact bufByte_bufWrite_from s.pgu ((xtsEnc_length _ _ _ _).trans (bufRead_length _ _ _)) ha
    | inverted => exact bufByte_bufWrite_from s.pgu ((xtsDec_length _ _ _ _).trans (bufRead_length _ _ _)) ha
    | passed => rfl
    | sizeChosen | counted | rangeSet | startFound => simp at hi

end Sys2Proof.Machine
end

section
/-! PROOFS. The invariant of spec/10_state.md R38: it holds right after reset, and every step keeps it, under any valid
parameters. -/

namespace Sys2Proof.Machine

/-! ### What the invariant speaks of -/

/-- The invariant goes over to a unit with the same registers and buffer, if E_MISMATCH is not lost. -/
theorem Pgu.Inv.of_same {cfg : Config} {p q : Pgu} (h : p.Inv cfg) (hsize : q.blockSize = p.blockSize)
    (hrange : q.start = p.start ∧ q.endOff = p.endOff ∧ q.len = p.len) (hoff : q.badOff = p.badOff)
    (herr : p.err = some .mismatch → q.err = some .mismatch) (hbuf : q.buf = p.buf) : q.Inv cfg := by
  obtain ⟨hstart, hend, hlen⟩ := hrange
  refine ⟨?_, ?_, fun hne => herr (h.badOff (hoff ▸ hne)), ?_⟩
  · unfold Pgu.blockSizeOk; rw [hsize]; exact h.blockSize
  · unfold Pgu.rangeOk; rw [hstart, hend, hlen]; exact h.range
  · unfold Pgu.bufOk; rw [hbuf]; exact h.buf

theorem reset_inv (cfg : Config) (n : Nat) : (Pgu.reset n).Inv cfg :=
  { blockSize := .inl rfl, range := .inl ⟨rfl, rfl, rfl⟩, badOff := fun h => absurd rfl h, buf := ⟨rfl, rfl⟩ }

/-- Settles O47: the reset state has no block size, no range, BADOFF 0 and no byte stored. -/
theorem resetMeetsTheInvariant : Obligations.ResetMeetsTheInvariant :=
  { pgu := reset_inv _ 0, devWf := rfl, devWithin := rfl }

/-! ### The operations on the unit -/

theorem Pgu.Inv.raise {cfg : Config} {p : Pgu} (h : p.Inv cfg) (e : ErrCode) : (p.raise e).Inv cfg :=
  h.of_same (raise_blockSize p e) ⟨raise_start p e, raise_endOff p e, raise_len p e⟩ (raise_badOff p e)
    (fun hp => by rw [raise_err, hp]; rfl) (raise_buf p e)

theorem Pgu.Inv.raiseMismatch {cfg : Config} {p : Pgu} (h : p.Inv cfg) (off : Nat) : (p.raiseMismatch off).Inv cfg := by
  by_cases hp : p.err = none
  · rw [raiseMismatch_of_clean p off hp]
    exact { blockSize := h.blockSize, range := h.range, badOff := fun _ => rfl, buf := h.buf }
  · rwa [raiseMismatch_of_faulted p off hp]

theorem Pgu.Inv.bufWrite {cfg : Config} {p : Pgu} (h : p.Inv cfg) {a : Nat} {data : List Byte}
    (hfits : data ≠ [] → a + data.length ≤ cfg.bufCap) : (p.bufWrite a data).Inv cfg :=
  { blockSize := h.blockSize, range := h.range, badOff := h.badOff
    buf := ⟨write_wf _ a data h.buf.1, write_within _ a _ data h.buf.2 hfits⟩ }

theorem Pgu.Inv.memWrite {cfg : Config} {p : Pgu} (h : p.Inv cfg) (a : Nat) (data : List Byte) :
    (p.memWrite cfg a data).Inv cfg := by
  unfold Pgu.memWrite
  split_ifs with hp hout
  · exact h
  · exact h.raise _
  · exact h.bufWrite fun hne =>
      Nat.not_lt.1 (mt (outOfRange_iff cfg a _ (List.length_pos_iff.2 hne).ne').2 hout)

/-- Storing a register leaves ERR, or raises E_RANGE (spec/20_memory.md R41). -/
theorem storeReg_err (p : Pgu) (r : RegName) (v : Word) :
    (p.storeReg r v).err = p.err ∨ (p.storeReg r v).err = p.err.or (some .range) := by
  cases r
  case sectorSize =>
    unfold Pgu.storeReg; dsimp only; split
    · exact .inr (raise_err p _)
    · exact .inl rfl
  all_goals exact .inl rfl

/-- A stored register keeps a recorded E_MISMATCH. -/
theorem storeReg_keeps_mismatch {p : Pgu} (r : RegName) (v : Word) (h : p.err = some .mismatch) :
    (p.storeReg r v).err = some .mismatch := by
  rcases storeReg_err p r v with he | he <;> rw [he, h]
  rfl

theorem Pgu.Inv.storeReg {cfg : Config} {p : Pgu} (h : p.Inv cfg) (r : RegName) (v : Word) :
    (p.storeReg r v).Inv cfg := by
  obtain ⟨hsize, -, hstart, hend, hlen, -, hoff, hbuf, -⟩ := storeReg_keeps p r v
  exact h.of_same hsize ⟨hstart, hend, hlen⟩ hoff (storeReg_keeps_mismatch r v) hbuf

theorem Pgu.Inv.writeReg {cfg : Config} {p : Pgu} (h : p.Inv cfg) (r : RegName) (v : Word) :
    (p.writeReg r v).Inv cfg := by
  unfold Pgu.writeReg
  split
  · exact h
  · split
    exacts [h.raise _, h.raise _, h.storeReg r v, h.storeReg r v]

/-! ### The commands -/

/-- The size that passes CHOOSE's checks is a valid block size and fits its register (R64). -/
theorem chosenSize_valid {p : Pgu} (hok : ¬ p.badSize p.chosenSize = true) :
    p.chosenSize % 16 = 0 ∧ 16 ≤ p.chosenSize ∧ (BitVec.ofNat 64 p.chosenSize).toNat = p.chosenSize := by
  cases hov : p.ovrEn with
  | true =>
    rw [badSize_of_override _ hov] at hok
    exact ⟨by omega, by omega, toNat_ofNat_of_le_word p.ovr (chosenSize_of_override hov).le⟩
  | false =>
    rw [badSize_of_computed _ hov] at hok
    have hsize := chosenSize_of_computed hov
    exact ⟨by omega, by omega, toNat_ofNat_of_le_word 134217728#64 (hsize.trans_le (Nat.min_le_right _ _))⟩

/-- A range that OFFSET stores fits its registers and is no longer than the block (R66). -/
theorem setRange_rangeOk {cfg : Config} {p : Pgu} (hb : p.blockSize.toNat ≤ cfg.bufCap)
    {first last : Nat} (hle : first ≤ last) (hd : last < p.diskSize.toNat)
    (hlen : last - first + 1 ≤ p.blockSize.toNat) : (p.setRange first last).rangeOk cfg := by
  have fits {n : Nat} (h : n ≤ p.diskSize.toNat) := toNat_ofNat_of_le_word p.diskSize h
  refine .inr ?_
  simp only [setRange_start, setRange_endOff, setRange_len]
  rw [fits (by omega), fits (by omega), fits (by omega)]
  omega

theorem keyBytes_length (p : Pgu) : p.keyBytes.length = 32 := by simp [Pgu.keyBytes]

theorem subKey1_length (p : Pgu) : p.subKey1.length = 16 := by simp [Pgu.subKey1, keyBytes_length]

theorem subKey2_length (p : Pgu) : p.subKey2.length = 16 := by simp [Pgu.subKey2, keyBytes_length]

theorem tweakBytes_length (cfg : Config) : (tweakBytes cfg).length = 16 := leBytes_length 16 _

/-- A valid block size is a length of the cipher's domain (spec/41_pattern_engine.md R90). -/
theorem inDomain_blockSize {cfg : Config} {p : Pgu} (h : p.blockSizeOk cfg) (hb : p.blockSize.toNat ≠ 0) :
    Tbc.inDomain cfg.bufCap p.blockSize.toNat := by
  obtain hzero | ⟨hmul, hmin, hcap⟩ := h
  · exact absurd hzero hb
  · exact ⟨hmin, hmul, hcap⟩

/-- The LEN that passes INVERT's checks is a length of the cipher's domain (R83, R90). -/
theorem inDomain_len {cfg : Config} {p : Pgu} (h : p.blockSizeOk cfg) (hl : ¬ p.badLen = true) :
    Tbc.inDomain cfg.bufCap p.len.toNat := by
  rw [badLen_iff] at hl
  unfold Pgu.blockSizeOk at h
  unfold Tbc.inDomain
  omega

/-- FILL's ciphertext is as long as the block, for any lawful cipher (R86). -/
theorem enc_bufRead_length {cfg : Config} (hcfg : cfg.Valid) (p : Pgu) {n : Nat} (hn : Tbc.inDomain cfg.bufCap n) :
    (cfg.tbc.enc p.subKey1 p.subKey2 (tweakBytes cfg) (p.bufRead 0 n)).length = n := by
  rw [hcfg.lawful.enc_length _ _ _ _ (subKey1_length p) (subKey2_length p) (tweakBytes_length cfg)
    (by rwa [bufRead_length]), bufRead_length]

/-- INVERT's plaintext is as long as LEN, for any lawful cipher (R86). -/
theorem dec_bufRead_length {cfg : Config} (hcfg : cfg.Valid) (p : Pgu) {n : Nat} (hn : Tbc.inDomain cfg.bufCap n) :
    (cfg.tbc.dec p.subKey1 p.subKey2 (tweakBytes cfg) (p.bufRead 0 n)).length = n := by
  rw [hcfg.lawful.dec_length _ _ _ _ (subKey1_length p) (subKey2_length p) (tweakBytes_length cfg)
    (by rwa [bufRead_length]), bufRead_length]

/-- Whatever a command does, it keeps the invariant. -/
theorem Pgu.Outcome.inv {cfg : Config} {p q : Pgu} {i : Instr} (hout : p.Outcome cfg i q) (hcfg : cfg.Valid)
    (h : p.Inv cfg) : q.Inv cfg := by
  have stored {n : Nat} {data : List Byte} (hlen : data.length = n) (hn : n ≤ cfg.bufCap) :
      (p.bufWrite 0 data).Inv cfg := h.bufWrite fun _ => by omega
  cases hout with
  | raised => exact h.raise _
  | sizeChosen hok hcap =>
    obtain ⟨hmul, hmin, hreg⟩ := chosenSize_valid hok
    refine { blockSize := .inr ?_, range := h.range, badOff := h.badOff, buf := h.buf }
    rw [setBlockSize_blockSize, hreg]
    exact ⟨hmul, hmin, hcap⟩
  | counted => exact h.of_same rfl ⟨rfl, rfl, rfl⟩ rfl id rfl
  | startFound => exact h.of_same rfl ⟨rfl, rfl, rfl⟩ rfl id rfl
  | rangeSet hb hi =>
    have hcap := (inDomain_blockSize h.blockSize hb).le_cap
    exact { blockSize := h.blockSize, badOff := h.badOff, buf := h.buf
            range := setRange_rangeOk hcap (by omega) (by omega) (by omega) }
  | zeroed hb => exact stored (zeros_length _) (inDomain_blockSize h.blockSize hb).le_cap
  | filled hb =>
    have hdom := inDomain_blockSize h.blockSize hb
    exact stored (enc_bufRead_length hcfg p hdom) hdom.le_cap
  | inverted hb hk hl =>
    have hdom := inDomain_len h.blockSize hl
    exact stored (dec_bufRead_length hcfg p hdom) hdom.le_cap
  | mismatched => exact h.raiseMismatch _
  | passed => exact h

/-! ### The steps -/

theorem Pgu.LineMove.inv {cfg : Config} {p q : Pgu} {op : HostOp} (hmove : p.LineMove cfg op q) (hcfg : cfg.Valid)
    (h : p.Inv cfg) : q.Inv cfg := by
  cases hmove with
  | kept => exact h
  | raised => exact h.raise _
  | wrote v => exact h.writeReg _ v
  | ran i => exact (commandEffect_outcome cfg i p).inv hcfg h
  | stored a data => exact h.memWrite _ _
  | reset => exact reset_inv cfg _

/-- A command moves the unit alone, however it is issued. -/
theorem regWrite_host {cfg : Config} {r : RegNum} {v : Word} {s t : State}
    (h : regWrite (execUnder cfg) r v s = .next t) : t.host = s.host := by
  unfold regWrite cmdWord execUnder runCommand at h
  split at h
  · split at h
    · cases h; rfl
    · split at h <;> cases h <;> rfl
  · cases h; rfl

/-- A buffer read answers as many bytes as asked for, in range or not (spec/20_memory.md R43). -/
theorem memRead_length (cfg : Config) (p : Pgu) (a n : Nat) : (p.memRead cfg a n).2.length = n := by
  unfold Pgu.memRead; split <;> simp

/-- What a line of the queue does to the device: nothing, or it stores at most LEN bytes at START, and then the range
that LEN spans is within the device (R104, log 5). -/
theorem runOpUnder_dev {cfg : Config} {op : HostOp} {s t : State} (h : runOpUnder cfg op s = .next t) :
    t.host.devSize = s.host.devSize ∧ (t.host.dev = s.host.dev ∨ ∃ data : List Byte,
      data.length ≤ s.pgu.len.toNat ∧ s.pastDevice = false ∧
        t.host.dev = Mem.write s.host.dev s.pgu.start.toNat data) := by
  cases op with
  | regWrite r v => rw [regWrite_host h]; exact ⟨rfl, .inl rfl⟩
  | regRead | memWrite | memRead | reset => cases h; exact ⟨rfl, .inl rfl⟩
  | devRead =>
    change devRead cfg s = .next t at h
    unfold devRead at h
    split at h
    · cases h
    · split at h <;> cases h <;> exact ⟨rfl, .inl rfl⟩
  | devWrite =>
    change devWrite cfg s = .next t at h
    unfold devWrite at h
    split at h
    · cases h
    · next hpast =>
      dsimp only at h
      split at h
      · next data hmoved =>
        cases h
        have hlen : data.length = s.pgu.len.toNat := (moved_length _ _ _ hmoved).trans (memRead_length _ _ _ _)
        exact ⟨rfl, .inr ⟨data, hlen.le, Bool.eq_false_of_not_eq_true hpast, rfl⟩⟩
      · cases h
        have hlen := (leftBehind_length s.host.nextAnswer _).trans (memRead_length cfg s.pgu 0 s.pgu.len.toNat).le
        exact ⟨rfl, .inr ⟨_, hlen, Bool.eq_false_of_not_eq_true hpast, rfl⟩⟩

/-- Bytes stored within the range of a transfer that is not past the device's end end within the device. -/
theorem devStore_fits {s : State} {data : List Byte} (hlen : data.length ≤ s.pgu.len.toNat)
    (hpast : s.pastDevice = false) (hne : data ≠ []) :
    s.pgu.start.toNat + data.length ≤ s.host.devSize.toNat := by
  have hpos : 0 < data.length := List.length_pos_iff.2 hne
  have hin := of_decide_eq_false hpast
  omega

/-- A line of the queue keeps the machine's invariant. -/
theorem runOpUnder_inv {cfg : Config} (hcfg : cfg.Valid) {op : HostOp} {s t : State} (hs : s.InvUnder cfg)
    (h : runOpUnder cfg op s = .next t) : t.InvUnder cfg := by
  have hpgu : t.pgu.Inv cfg := (runOpUnder_move h).inv hcfg hs.pgu
  obtain ⟨hsize, hdev | ⟨data, hlen, hpast, hdev⟩⟩ := runOpUnder_dev h
  · exact { pgu := hpgu, devWf := hdev ▸ hs.devWf, devWithin := by rw [hdev, hsize]; exact hs.devWithin }
  · refine { pgu := hpgu, devWf := ?_, devWithin := ?_ } <;> rw [hdev]
    · exact write_wf _ _ _ hs.devWf
    · rw [hsize]; exact write_within _ _ _ _ hs.devWithin (devStore_fits hlen hpast)

theorem stepUnder_inv {cfg : Config} (hcfg : cfg.Valid) {s t : State} (hs : s.InvUnder cfg)
    (h : stepUnder cfg s = .next t) : t.InvUnder cfg := by
  unfold stepUnder stepWith at h
  split at h
  · cases h
    obtain ⟨hdev, hsize, -⟩ := nextMove_keeps s.host
    exact { pgu := hs.pgu, devWf := hdev.symm ▸ hs.devWf,
            devWithin := by rw [mapHost_host, hdev, hsize]; exact hs.devWithin }
  · next op rest _ =>
    have hpop : (s.popScript rest).InvUnder cfg := { pgu := hs.pgu, devWf := hs.devWf, devWithin := hs.devWithin }
    exact runOpUnder_inv hcfg hpop h

/-- Settles O48: the step is that of the default parameters, which are valid. -/
theorem stepKeepsTheInvariant : Obligations.StepKeepsTheInvariant := fun s _ hs h =>
  stepUnder_inv standard_valid hs (step_eq s ▸ h)

/-- Settles O49: every command keeps the unit's invariant whatever it does, and every step the machine's. -/
theorem commandsKeepTheInvariantUnderAnyParameters : Obligations.CommandsKeepTheInvariantUnderAnyParameters := by
  intro cfg hcfg
  refine ⟨fun p hp _ => ?_, fun s t => stepUnder_inv hcfg⟩
  have ran (i : Instr) : (commandEffect cfg i p).Inv cfg := (commandEffect_outcome cfg i p).inv hcfg hp
  exact ⟨ran .choose, ran .count, ran .offset, ran .startblk, ran .zero, ran .fill, ran .invert, ran .check,
    hp.memWrite⟩

end Sys2Proof.Machine
end

section
/-! PROOFS. What only some lines of the queue can do: report a mismatch (spec/10_state.md R17, R30), change the key
(R17, R31). -/

namespace Sys2Proof.Machine

/-! ### The mismatch is CHECK's alone -/

/-- `q` has the BADOFF of `p` and, if `p` has not faulted, holds no E_MISMATCH. -/
def Pgu.ReportsNoMismatch (p q : Pgu) : Prop :=
  q.badOff = p.badOff ∧ (p.err = none → q.err ≠ some .mismatch)

theorem reportsNoMismatch_of_same {p q : Pgu} (hoff : q.badOff = p.badOff) (herr : q.err = p.err) :
    p.ReportsNoMismatch q := ⟨hoff, fun hp => by rw [herr, hp]; nofun⟩

theorem reportsNoMismatch_raise (p : Pgu) {e : ErrCode} (he : e ≠ .mismatch) : p.ReportsNoMismatch (p.raise e) :=
  ⟨raise_badOff p e, fun hp => by rw [raise_err, hp]; exact fun h => he (Option.some.inj h)⟩

theorem Pgu.Outcome.reportsNoMismatch {cfg : Config} {p q : Pgu} {i : Instr} (h : p.Outcome cfg i q)
    (hi : i ≠ .check) : p.ReportsNoMismatch q := by
  cases h with
  | raised i he => exact reportsNoMismatch_raise p he
  | sizeChosen | counted | rangeSet | startFound | zeroed | filled | inverted => exact reportsNoMismatch_of_same rfl rfl
  | mismatched | passed => exact absurd rfl hi

theorem writeReg_reportsNoMismatch (p : Pgu) (r : RegName) (v : Word) : p.ReportsNoMismatch (p.writeReg r v) := by
  have kept : p.ReportsNoMismatch p := reportsNoMismatch_of_same rfl rfl
  have stored : p.ReportsNoMismatch (p.storeReg r v) := by
    obtain ⟨-, -, -, -, -, -, hoff, -, -⟩ := storeReg_keeps p r v
    rcases storeReg_err p r v with he | he
    · exact reportsNoMismatch_of_same hoff he
    · exact ⟨hoff, fun hp => by rw [he, hp]; nofun⟩
  unfold Pgu.writeReg
  split
  · exact kept
  · split
    exacts [reportsNoMismatch_raise p nofun, reportsNoMismatch_raise p nofun, stored, stored]

/-- No line but the write of CHECK's word reports a mismatch, and of the others the reset alone moves BADOFF. -/
theorem Pgu.LineMove.reportsNoMismatch {cfg : Config} {p q : Pgu} {op : HostOp} (h : p.LineMove cfg op q)
    (hcheck : op ≠ .regWrite 0x00#5 (encode .check)) :
    (op ≠ .reset → q.badOff = p.badOff) ∧ (p.err = none → q.err ≠ some .mismatch) := by
  have notReset {q' : Pgu} (hq : p.ReportsNoMismatch q') :
      (op ≠ .reset → q'.badOff = p.badOff) ∧ (p.err = none → q'.err ≠ some .mismatch) := ⟨fun _ => hq.1, hq.2⟩
  cases h with
  | kept => exact notReset (reportsNoMismatch_of_same rfl rfl)
  | raised op he => exact notReset (reportsNoMismatch_raise p he)
  | wrote v => exact notReset (writeReg_reportsNoMismatch p _ v)
  | ran i => exact notReset ((commandEffect_outcome cfg i p).reportsNoMismatch fun hi => hcheck (by rw [hi]))
  | stored op a data =>
    unfold Pgu.memWrite; split_ifs
    exacts [notReset (reportsNoMismatch_of_same rfl rfl), notReset (reportsNoMismatch_raise p nofun),
      notReset (reportsNoMismatch_of_same rfl rfl)]
  | reset => exact ⟨fun hop => absurd rfl hop, fun _ => nofun⟩

/-- Settles O50: the queue's line is no write of CHECK's word, or else it reports; an empty queue leaves the unit. -/
theorem onlyCheckReportsAMismatch : Obligations.OnlyCheckReportsAMismatch := by
  intro s t hstep
  obtain hkept | ⟨op, rest, hscript, hmove⟩ := stepUnder_move (step_eq s ▸ hstep)
  · rw [hkept]
    exact ⟨fun hs he => absurd (hs.symm.trans he) nofun, fun _ _ => rfl⟩
  · refine ⟨fun hs he => ⟨rest, ?_⟩, fun hreset hcheck => ?_⟩
    · by_contra hcheck
      exact (hmove.reportsNoMismatch fun h => hcheck (h ▸ hscript)).2 hs he
    · exact (hmove.reportsNoMismatch fun h => hcheck rest (h ▸ hscript)).1 fun h => hreset rest (h ▸ hscript)

/-! ### The key is the key writes' alone -/

/-- `q` has the KEYW bits and the key bytes of `p`. -/
def Pgu.SameKey (p q : Pgu) : Prop := q.keyw = p.keyw ∧ q.keyBytes = p.keyBytes

theorem sameKey_raise (p : Pgu) (e : ErrCode) : p.SameKey (p.raise e) := by
  simp [Pgu.SameKey, Pgu.keyBytes]

theorem sameKey_raiseMismatch (p : Pgu) (off : Nat) : p.SameKey (p.raiseMismatch off) := by
  simp [Pgu.SameKey, Pgu.keyBytes]

theorem Pgu.Outcome.sameKey {cfg : Config} {p q : Pgu} {i : Instr} (h : p.Outcome cfg i q) : p.SameKey q := by
  cases h with
  | raised => exact sameKey_raise p _
  | mismatched => exact sameKey_raiseMismatch p _
  | sizeChosen | counted | rangeSet | startFound | zeroed | filled | inverted | passed => exact ⟨rfl, rfl⟩

theorem writeReg_sameKey (p : Pgu) {r : RegName} (v : Word) (h : r.access ≠ .writeOnly) :
    p.SameKey (p.writeReg r v) := by
  have stored : p.SameKey (p.storeReg r v) := by
    cases r
    case sectorSize =>
      unfold Pgu.storeReg; dsimp only; split
      exacts [sameKey_raise p _, ⟨rfl, rfl⟩]
    case key0 | key1 | key2 | key3 => exact absurd rfl h
    all_goals exact ⟨rfl, rfl⟩
  unfold Pgu.writeReg
  split
  · exact ⟨rfl, rfl⟩
  · split
    exacts [sameKey_raise p _, sameKey_raise p _, stored, stored]

theorem access_ne_writeOnly (r : RegNum) (hcmd : regName r ≠ .cmd) (hkey : ¬ (0x10#5 ≤ r ∧ r ≤ 0x13#5)) :
    (regName r).access ≠ .writeOnly := by
  revert r; decide

theorem Pgu.LineMove.sameKey {cfg : Config} {p q : Pgu} {op : HostOp} (h : p.LineMove cfg op q)
    (hreset : op ≠ .reset) (hkey : ∀ r v, 0x10#5 ≤ r → r ≤ 0x13#5 → op ≠ .regWrite r v) : p.SameKey q := by
  cases h with
  | kept => exact ⟨rfl, rfl⟩
  | raised => exact sameKey_raise p _
  | @wrote r v hr => exact writeReg_sameKey p v (access_ne_writeOnly r hr fun h => hkey r v h.1 h.2 rfl)
  | ran i => exact (commandEffect_outcome cfg i p).sameKey
  | stored op a data =>
    unfold Pgu.memWrite; split_ifs
    exacts [⟨rfl, rfl⟩, sameKey_raise p _, ⟨rfl, rfl⟩]
  | reset => exact absurd rfl hreset

/-- Settles O51: every line but the reset and the writes to the four KEY registers keeps the key. -/
theorem onlyKeyWritesChangeTheKey : Obligations.OnlyKeyWritesChangeTheKey := by
  intro s t hstep hreset hkey
  obtain hkept | ⟨op, rest, hscript, hmove⟩ := stepUnder_move (step_eq s ▸ hstep)
  · rw [hkept]; exact ⟨rfl, rfl⟩
  · exact hmove.sameKey (fun h => hreset rest (h ▸ hscript)) fun r v hlo hhi h => hkey r v rest hlo hhi (h ▸ hscript)

end Sys2Proof.Machine
end

section
/-! PROOFS. What follows from the block ranges: which indices are valid, the sum of the lengths, the size CHOOSE leaves
and the block STARTBLK names (spec/40_block_range.md R67, R71 to R73). -/

namespace Sys2Proof.Machine

/-! ### Valid indices and the sum of the lengths (R71, R72) -/

/-- Settles O14: OFFSET's function fails where the block starts past the device, which is from the count on. -/
theorem validIndicesEndAtTheCount : Obligations.ValidIndicesEndAtTheCount := by
  intro d b i _ hb
  have hcount : countFn d b ≤ i ↔ d ≤ i * b := by rw [← not_lt, lt_countFn_iff i hb, not_lt]
  rw [hcount]
  by_cases h : d ≤ i * b
  · simp [offsetFn_of_le h, h]
  · simp [offsetFn_of_lt (Nat.not_le.1 h), h]

/-- The length of block `i`, 0 past the last block. -/
def blockLength (d b i : Nat) : Nat :=
  match offsetFn d b i with
  | some (first, last) => last - first + 1
  | none => 0

/-- A block that starts in the device reaches to the next block's start or to the device's end. -/
theorem blockLength_eq {d b i : Nat} (hb : 0 < b) (hi : i * b < d) :
    blockLength d b i = min ((i + 1) * b) d - i * b := by
  have hnext : (i + 1) * b = i * b + b := Nat.succ_mul i b
  rw [blockLength, offsetFn_of_lt hi]
  dsimp only
  omega

/-- The first `k` blocks together reach as far as the last of them. -/
theorem sum_blockLength {d b k : Nat} (hb : 0 < b) (hk : k ≤ countFn d b) :
    ((List.range k).map (blockLength d b)).sum = min (k * b) d := by
  induction k with
  | zero => simp
  | succ k ih =>
    have hstart : k * b < d := (lt_countFn_iff k hb).1 hk
    have hnext : (k + 1) * b = k * b + b := Nat.succ_mul k b
    rw [List.range_succ, List.map_append, List.sum_append, ih (by omega), List.map_singleton, List.sum_singleton,
      blockLength_eq hb hstart]
    omega

/-- Settles O15: the blocks below the count reach the device's end. -/
theorem blockLengthsSumToTheDevice : Obligations.BlockLengthsSumToTheDevice := by
  intro d b _ hb
  have hend : d ≤ countFn d b * b := Nat.not_lt.1 (mt (lt_countFn_iff _ hb).2 (lt_irrefl _))
  exact (sum_blockLength hb le_rfl).trans (min_eq_right hend)

/-! ### The size that CHOOSE leaves (R73) -/

/-- A CHOOSE that does not fault stores the size it computed, which has passed its checks. -/
theorem exec_choose_of_noFault {s t : State} (hs : s.clean) (h : exec .choose s = .next t) (ht : t.clean) :
    ¬ s.pgu.badSize s.pgu.chosenSize = true ∧ s.pgu.chosenSize ≤ 134217728 ∧
      t.pgu.blockSize.toNat = s.pgu.chosenSize := by
  obtain ⟨-, hout⟩ := exec_outcome_of_clean hs h
  unfold State.clean at hs ht
  generalize t.pgu = q at hout ht
  cases hout with
  | raised => simp [raise_err, hs] at ht
  | sizeChosen hok hcap => exact ⟨hok, hcap, (chosenSize_valid hok).2.2⟩

/-- The size CHOOSE computes, before the clamps: a multiple of the sector size no larger than a thousandth of the
device. -/
theorem rawBlockSize_bound (d s : Nat) : sectorEff s ∣ rawBlockSize d s ∧ rawBlockSize d s ≤ d / 1000 :=
  ⟨Nat.dvd_mul_left _ _, Nat.div_mul_le_self _ _⟩

/-- Settles O16: the size is the raw one or a clamp, and `b * n < d` makes the count more than `n`. -/
theorem chosenSizeIsValid : Obligations.ChosenSizeIsValid := by
  rintro s t b d sEff hs h ht rfl rfl rfl
  obtain ⟨hok, hcap, hsize⟩ := exec_choose_of_noFault hs h ht
  obtain ⟨hmul, hmin, -⟩ := chosenSize_valid hok
  rw [hsize]
  refine ⟨hmul, hmin, hcap, fun hov => ?computed⟩
  obtain ⟨hdvd, hraw⟩ := rawBlockSize_bound s.pgu.diskSize.toNat s.pgu.sectorSize.toNat
  have hchosen := chosenSize_of_computed hov
  change _ ∧ (_ ∨ _ ∨ sectorEff s.pgu.sectorSize.toNat ∣ _ ∧ _) ∧ _ ∧
    (134217728 < rawBlockSize s.pgu.diskSize.toNat s.pgu.sectorSize.toNat → _)
  generalize rawBlockSize s.pgu.diskSize.toNat s.pgu.sectorSize.toNat = raw at *
  have above (n : Nat) (hn : n * s.pgu.chosenSize < s.pgu.diskSize.toNat) :
      n < countFn s.pgu.diskSize.toNat s.pgu.chosenSize := (lt_countFn_iff n (by omega)).2 hn
  refine ⟨by omega, ?_, fun hlo hhi => above 999 (by omega), fun hbig => above 1000 (by omega)⟩
  by_cases hlo : raw ≤ 1048576
  · exact .inl (by omega)
  · by_cases hhi : 134217728 ≤ raw
    · exact .inr (.inl (by omega))
    · obtain rfl : s.pgu.chosenSize = raw := by omega
      exact .inr (.inr ⟨hdvd, hraw⟩)

/-! ### The block that STARTBLK names (R67) -/

/-- OFFSET of the block number `o / BLOCK_SIZE` leaves a range that holds the device offset `o`. -/
theorem offset_of_floor {p : Pgu} {o : Nat} (hb : p.blockSize.toNat ≠ 0) (ho : o < p.diskSize.toNat)
    (hi : p.index.toNat = o / p.blockSize.toNat) :
    p.offset.err = p.err ∧ p.offset.start.toNat ≤ o ∧ o ≤ p.offset.endOff.toNat := by
  have hstart : p.index.toNat * p.blockSize.toNat ≤ o := hi ▸ Nat.div_mul_le_self _ _
  have hend : o < p.index.toNat * p.blockSize.toNat + p.blockSize.toNat :=
    hi ▸ Nat.lt_div_mul_add (Nat.pos_of_ne_zero hb)
  have fits {n : Nat} (h : n ≤ p.diskSize.toNat) := toNat_ofNat_of_le_word p.diskSize h
  rw [offset_of_inRange hb (by omega), setRange_start, setRange_endOff, fits (by omega), fits (by omega)]
  exact ⟨rfl, hstart, by omega⟩

/-- Settles O17: the start block is the floor of START_OFFSET by the block size, which the plan still holds. -/
theorem startBlockIsAValidIndex : Obligations.StartBlockIsAValidIndex := by
  intro s t hs h ht
  obtain ⟨-, hout⟩ := exec_outcome_of_clean hs h
  obtain ⟨q, host⟩ := t
  unfold State.clean at hs ht
  dsimp only at hout ht ⊢
  cases hout with
  | raised => simp [raise_err, hs] at ht
  | startFound hb ho =>
    have hindex := toNat_ofNat_of_le_word s.pgu.startOffset (Nat.div_le_self _ s.pgu.blockSize.toNat)
    obtain ⟨herr, hstart, hend⟩ := offset_of_floor
      (p := { s.pgu.setStartBlock _ with index := (s.pgu.setStartBlock _).startBlock }) hb ho hindex
    exact ⟨_, exec_of_clean hs rfl, herr.trans hs, hstart, hend⟩

end Sys2Proof.Machine
end

section
/-! PROOFS. The pattern and the verify oracle, for any lawful cipher (spec/41_pattern_engine.md R92 to R96). -/

namespace Sys2Proof.Machine

/-! ### A stored byte string and what reads it -/

theorem eq_zeros_iff (l : List Byte) : l = zeros l.length ↔ ∀ b ∈ l, b = 0#8 := by
  rw [zeros, List.eq_replicate_iff]; simp

/-- CHECK raises nothing exactly when the first LEN bytes of BUF are zeros (R91). -/
theorem check_err {p : Pgu} (hp : p.err = none) (hl : p.len.toNat ≠ 0) :
    p.check.err = if p.bufRead 0 p.len.toNat = zeros p.len.toNat then none else some .mismatch := by
  have hzeros : p.bufRead 0 p.len.toNat = zeros p.len.toNat ↔ firstNonZero (p.bufRead 0 p.len.toNat) = none := by
    rw [firstNonZero_none, ← eq_zeros_iff, bufRead_length]
  simp only [hzeros]
  rw [Pgu.check, if_neg hl]
  cases firstNonZero (p.bufRead 0 p.len.toNat) with
  | none => exact hp
  | some i0 => exact congrArg Pgu.err (raiseMismatch_of_clean p _ hp)

/-- Writing back what a range of BUF holds changes no byte. -/
theorem bufByte_bufWrite_bufRead (p q : Pgu) {n a : Nat} (hout : n ≤ a → q.bufByte a = p.bufByte a) :
    (q.bufWrite 0 (p.bufRead 0 n)).bufByte a = p.bufByte a := by
  by_cases ha : a < n
  · have hin := bufByte_bufWrite_inside q 0 (data := p.bufRead 0 n) (i := a) (by rwa [bufRead_length])
    rw [bufRead_getElem?, if_pos ha, Nat.zero_add] at hin
    exact (Option.some.inj hin).symm
  · rw [bufByte_bufWrite_from q (bufRead_length _ _ _) (Nat.not_lt.1 ha), hout (Nat.not_lt.1 ha)]

/-! ### The cipher's laws at the unit's keys (R87, R89) -/

section
variable {cfg : Config} (hcfg : cfg.Valid) (p : Pgu)
include hcfg

theorem dec_enc_of_inDomain {s : List Byte} (h : Tbc.inDomain cfg.bufCap s.length) :
    cfg.tbc.dec p.subKey1 p.subKey2 (tweakBytes cfg) (cfg.tbc.enc p.subKey1 p.subKey2 (tweakBytes cfg) s) = s :=
  hcfg.lawful.dec_enc _ _ _ _ (subKey1_length p) (subKey2_length p) (tweakBytes_length cfg) h

theorem enc_dec_of_inDomain {s : List Byte} (h : Tbc.inDomain cfg.bufCap s.length) :
    cfg.tbc.enc p.subKey1 p.subKey2 (tweakBytes cfg) (cfg.tbc.dec p.subKey1 p.subKey2 (tweakBytes cfg) s) = s :=
  hcfg.lawful.enc_dec _ _ _ _ (subKey1_length p) (subKey2_length p) (tweakBytes_length cfg) h

/-- The pattern of a shorter length is the beginning of that of a longer one. -/
theorem take_enc_zeros {m n : Nat} (hm : Tbc.inDomain cfg.bufCap m) (hn : Tbc.inDomain cfg.bufCap n) (hmn : m ≤ n) :
    (cfg.tbc.enc p.subKey1 p.subKey2 (tweakBytes cfg) (zeros n)).take m =
      cfg.tbc.enc p.subKey1 p.subKey2 (tweakBytes cfg) (zeros m) := by
  rw [hcfg.lawful.enc_take _ _ _ _ _ (subKey1_length p) (subKey2_length p) (tweakBytes_length cfg)
    (by rwa [zeros_length]) hm (by rwa [zeros_length])]
  rw [zeros, List.take_replicate, Nat.min_eq_left hmn]; rfl

/-! ### FILL and INVERT as stores (R82, R83) -/

section
variable {p} (hk : p.keyw = 0b1111#4) (hok : p.blockSizeOk cfg) (hb : p.blockSize.toNat ≠ 0)
include hk hok hb

theorem fill_stores : (p.fill cfg).bufRead 0 p.blockSize.toNat =
      cfg.tbc.enc p.subKey1 p.subKey2 (tweakBytes cfg) (p.bufRead 0 p.blockSize.toNat) ∧
    ∀ a, p.blockSize.toNat ≤ a → (p.fill cfg).bufByte a = p.bufByte a := by
  rw [fill_of_key cfg hb hk]
  exact bufWrite_prefix p (enc_bufRead_length hcfg p (inDomain_blockSize hok hb))

theorem invert_stores (hl : ¬ p.badLen = true) : (p.invert cfg).bufRead 0 p.len.toNat =
      cfg.tbc.dec p.subKey1 p.subKey2 (tweakBytes cfg) (p.bufRead 0 p.len.toNat) ∧
    ∀ a, p.len.toNat ≤ a → (p.invert cfg).bufByte a = p.bufByte a := by
  rw [invert_of_goodLen cfg hb hk hl]
  exact bufWrite_prefix p (dec_bufRead_length hcfg p (inDomain_len hok hl))

/-- After ZERO, FILL leaves the pattern of the key and the block size (R93). -/
theorem bufRead_zero_fill : (p.zero.fill cfg).bufRead 0 p.blockSize.toNat =
    cfg.tbc.enc p.subKey1 p.subKey2 (tweakBytes cfg) (zeros p.blockSize.toNat) := by
  rw [zero_of_blockSize hb]
  exact (fill_stores hcfg (p := p.bufWrite 0 (zeros _)) hk hok hb).1.trans
    (congrArg _ (bufWrite_prefix p (zeros_length _)).1)

/-- INVERT over a whole filled block writes back what the block held before FILL (R92). -/
theorem fill_invert_eq (hlen : p.len = p.blockSize) :
    (p.fill cfg).invert cfg = (p.fill cfg).bufWrite 0 (p.bufRead 0 p.blockSize.toNat) := by
  have hdom := inDomain_blockSize hok hb
  obtain ⟨hread, -⟩ := fill_stores hcfg hk hok hb
  obtain ⟨hlen', hsize, hkey, hk1, hk2⟩ : (p.fill cfg).len = p.blockSize ∧ (p.fill cfg).blockSize = p.blockSize ∧
      (p.fill cfg).keyw = 0b1111#4 ∧ (p.fill cfg).subKey1 = p.subKey1 ∧ (p.fill cfg).subKey2 = p.subKey2 := by
    rw [fill_of_key cfg hb hk]; exact ⟨hlen, rfl, hk, rfl, rfl⟩
  have hl : ¬ (p.fill cfg).badLen = true := by
    have hmul := hdom.mod_eq_zero
    rw [badLen_iff, hlen', hsize]; omega
  rw [invert_of_goodLen cfg (hsize.symm ▸ hb) hkey hl, hlen', hread, hk1, hk2,
    dec_enc_of_inDomain hcfg p (by rwa [bufRead_length])]

theorem bufByte_fill_invert (hlen : p.len = p.blockSize) (a : Nat) :
    ((p.fill cfg).invert cfg).bufByte a = p.bufByte a := by
  rw [fill_invert_eq hcfg hk hok hb hlen]
  exact bufByte_bufWrite_bufRead p _ ((fill_stores hcfg hk hok hb).2 a)

end
end

/-- Settles O23: the pattern is the ciphertext of zeros under the key, and shorter ciphertexts begin the longer ones. -/
theorem patternDependsOnKeyAndSizeOnly : Obligations.PatternDependsOnKeyAndSizeOnly := by
  intro cfg p q hcfg _ _ hkp hkq hkeys hokp hokq hbp hbq hle
  have hp := bufRead_zero_fill hcfg hkp hokp hbp
  refine ⟨hp, ?_⟩
  have hsub : p.subKey1 = q.subKey1 ∧ p.subKey2 = q.subKey2 := by
    unfold Pgu.subKey1 Pgu.subKey2; rw [hkeys]; exact ⟨rfl, rfl⟩
  rw [hp, bufRead_zero_fill hcfg hkq hokq hbq,
    take_enc_zeros hcfg q (inDomain_blockSize hokp hbp) (inDomain_blockSize hokq hbq) hle, hsub.1, hsub.2]

/-- Settles O24: INVERT writes back what FILL encrypted, which after ZERO is zeros, so CHECK passes. -/
theorem fillThenInvertRestores : Obligations.FillThenInvertRestores := by
  intro cfg p hcfg hp hk hok hb hlen
  refine ⟨?_, bufByte_fill_invert hcfg hk hok hb hlen⟩
  have hzero : p.zero = p.bufWrite 0 (zeros p.blockSize.toNat) := zero_of_blockSize hb
  have hbytes (a : Nat) (ha : a < p.blockSize.toNat) : ((p.zero.fill cfg).invert cfg).bufByte a = 0#8 := by
    rw [hzero, bufByte_fill_invert hcfg (p := p.bufWrite 0 _) hk hok hb hlen, bufByte_bufWrite_zeros, if_pos ha]
  obtain ⟨herr, hlen'⟩ : ((p.zero.fill cfg).invert cfg).err = none ∧
      ((p.zero.fill cfg).invert cfg).len = p.blockSize := by
    rw [hzero, fill_invert_eq hcfg (p := p.bufWrite 0 _) hk hok hb hlen, fill_of_key cfg (p := p.bufWrite 0 _) hb hk]
    exact ⟨hp, hlen⟩
  rw [check_of_zeros (by rwa [hlen']) (by rwa [hlen'])]
  exact ⟨herr, hbytes⟩

/-- Settles O25: INVERT leaves zeros exactly when the loaded bytes are the ciphertext of zeros, by the two equations of
law T2. -/
theorem verifyOracleIsExact : Obligations.VerifyOracleIsExact := by
  rintro cfg p _ hcfg hp hk hok hb hpos hle rfl
  have hl0 : p.len.toNat ≠ 0 := by omega
  have oracle (hmul : p.len.toNat % 16 = 0) : (p.invert cfg).check.err =
      if p.bufRead 0 p.len.toNat =
          (cfg.tbc.enc p.subKey1 p.subKey2 (tweakBytes cfg) (zeros p.blockSize.toNat)).take p.len.toNat
        then none else some .mismatch := by
    have hl : ¬ p.badLen = true := by rw [badLen_iff]; omega
    have hdom := inDomain_len hok hl
    obtain ⟨herr, hlen⟩ : (p.invert cfg).err = none ∧ (p.invert cfg).len = p.len := by
      rw [invert_of_goodLen cfg hb hk hl]; exact ⟨hp, rfl⟩
    rw [check_err herr (hlen.symm ▸ hl0), hlen, (invert_stores hcfg hk hok hb hl).1,
      take_enc_zeros hcfg p hdom (inDomain_blockSize hok hb) hle]
    refine if_congr ⟨fun h => ?_, fun h => ?_⟩ rfl rfl
    · rw [← h, enc_dec_of_inDomain hcfg p (by rwa [bufRead_length])]
    · rw [h, dec_enc_of_inDomain hcfg p (by rwa [zeros_length])]
  refine ⟨fun hmul h => by rw [oracle hmul, if_pos h], fun hmul h => by rw [oracle hmul, if_neg h], fun hmul => ?_⟩
  rw [invert_of_badLen cfg hp hb hk ((badLen_iff p).2 (.inr (.inl hmul)))]

/-- Settles O26: ZERO clears the whole block, so CHECK finds no byte within LEN. -/
theorem zeroModeNeedsNoKey : Obligations.ZeroModeNeedsNoKey := by
  intro s hs hb hpos hle
  have hclean : State.clean { s with pgu := s.pgu.bufWrite 0 (zeros s.pgu.blockSize.toNat) } := hs
  refine ⟨_, exec_of_clean hs (zero_of_blockSize hb), hclean, exec_of_clean hclean (check_of_zeros ?_ fun i hi => ?_)⟩
  · exact Nat.ne_of_gt hpos
  · rw [bufByte_bufWrite_zeros, if_pos (hi.trans_le hle)]

end Sys2Proof.Machine
end

section
/-! PROOFS. What software sees: the layout of STATUS and the fault codes (spec/10_state.md R17,
spec/60_exceptions.md R121), the key's byte order (R31), BUF as a byte string (spec/20_memory.md R45 to R47), and the
bus mapping (R42, spec/30_encoding.md R60). -/

namespace Sys2Proof.Machine

/-! ### STATUS (R17, R121) -/

theorem code_ne_zero (e : ErrCode) : e.code ≠ 0#8 := by cases e <;> decide

theorem code_inj {e e' : ErrCode} (h : e.code = e'.code) : e = e' := by
  revert h; cases e <;> cases e' <;> decide

/-- Settles O58: the codes are those of the table, by which each code has one name. -/
theorem faultCodesAreAsListed : Obligations.FaultCodesAreAsListed :=
  ⟨⟨rfl, rfl, rfl, rfl, rfl, rfl, rfl, rfl, rfl, rfl, rfl, rfl⟩, fun e _ => ⟨code_ne_zero e, code_inj⟩⟩

theorem errField_of_err {p : Pgu} {e : ErrCode} (h : p.err = some e) : p.errField = e.code := by
  rw [Pgu.errField, h]

theorem errField_eq_zero_iff (p : Pgu) : p.errField = 0#8 ↔ p.err = none := by
  unfold Pgu.errField
  cases p.err with
  | none => simp
  | some e => simp [code_ne_zero e]

/-- STATUS as its fields side by side: the zero bits 63:12, KEYW, ERR. -/
theorem statusWord_eq (p : Pgu) : p.statusWord = (0#52 ++ p.keyw) ++ p.errField := by
  apply BitVec.eq_of_toNat_eq
  have hlt : (p.keyw ++ p.errField).toNat < 2 ^ 64 := (p.keyw ++ p.errField).isLt.trans (by decide)
  rw [Pgu.statusWord, BitVec.zeroExtend, BitVec.toNat_setWidth, Nat.mod_eq_of_lt hlt]
  simp only [BitVec.toNat_append, BitVec.toNat_ofNat, Nat.zero_mod, Nat.zero_shiftLeft, Nat.zero_or]

/-- ERR is in the low byte of STATUS. -/
theorem errOfStatus_statusWord (p : Pgu) : errOfStatus p.statusWord = p.errField := by
  rw [errOfStatus, statusWord_eq]; exact BitVec.extractLsb'_append_eq_right

/-- Settles O39: each field is cut out of STATUS at its own place. -/
theorem statusWordLayout : Obligations.StatusWordLayout := by
  intro p
  refine ⟨errOfStatus_statusWord p, ?keyw, ?rest, errField_eq_zero_iff p⟩ <;> rw [statusWord_eq]
  case keyw => exact (BitVec.extractLsb'_append_eq_of_le (by decide)).trans BitVec.extractLsb'_append_eq_right
  case rest => exact (BitVec.extractLsb'_append_eq_of_le (by decide)).trans BitVec.extractLsb'_append_eq_left

/-! ### The key (R31) -/

/-- Byte `i` of the little-endian bytes of a number. -/
theorem leBytes_getElem? {n i : Nat} (v : Nat) (h : i < n) :
    (leBytes n v)[i]? = some (BitVec.ofNat 8 (v / 256 ^ i)) := by
  induction n generalizing v i with
  | zero => omega
  | succ n ih =>
    cases i with
    | zero => simp [leBytes]
    | succ i => rw [leBytes, List.getElem?_cons_succ, ih _ (by omega), Nat.div_div_eq_div_mul, Nat.pow_succ']

/-- Byte `i` of a register's bytes is bits `8i+7` to `8i` of the register. -/
theorem le64_getElem? {i : Nat} (v : Word) (h : i < 8) : (le64 v)[i]? = some (v.extractLsb' (8 * i) 8) := by
  rw [le64, leBytes_getElem? _ h]
  congr 1
  apply BitVec.eq_of_toNat_eq
  rw [BitVec.toNat_ofNat, BitVec.extractLsb'_toNat, Nat.shiftRight_eq_div_pow, Nat.pow_mul]

/-- KEY`n`, of which `n` = 0 to 3 exist. -/
def Pgu.keyReg (p : Pgu) (n : Nat) : Word :=
  if n = 0 then p.key0 else if n = 1 then p.key1 else if n = 2 then p.key2 else p.key3

/-- The `n`-th group of eight key bytes is the bytes of KEY`n`. -/
theorem keyBytes_getElem? (p : Pgu) {n k : Nat} (hn : n < 4) (hk : k < 8) :
    p.keyBytes[8 * n + k]? = (le64 (p.keyReg n))[k]? := by
  match n, hn with
  | 0, _ | 1, _ | 2, _ | 3, _ => grind [Pgu.keyBytes, Pgu.keyReg, le64_length]

/-- Settles O40: byte `j` of the key is byte `j mod 8` of KEY`(j / 8)`, and the two sub-keys are its halves. -/
theorem keyBytesAreLittleEndian : Obligations.KeyBytesAreLittleEndian := by
  intro p j hj
  refine ⟨?_, (List.take_append_drop 16 p.keyBytes).symm, subKey1_length p, subKey2_length p⟩
  have hmod : j % 8 < 8 := Nat.mod_lt j (by decide)
  have hbyte := (keyBytes_getElem? p (n := j / 8) (by omega) hmod).trans (le64_getElem? _ hmod)
  rwa [Nat.div_add_mod] at hbyte

/-! ### BUF as a byte string (R45 to R47) -/

/-- Settles O43: a read is the list of the bytes at consecutive indices. -/
theorem bufferReadsConcatenate : Obligations.BufferReadsConcatenate := by
  intro p a m n
  unfold Pgu.bufRead
  rw [List.range_add, List.map_append, List.map_map]
  simp only [Function.comp_def, Nat.add_assoc]

/-- Settles O44: the write is within the buffer, so both primitives run, and the read returns what was written. -/
theorem writeThenReadReturnsTheBytes : Obligations.WriteThenReadReturnsTheBytes := by
  intro s a data hs _ hin
  have hread := memRead_of_inRange (cfg := Config.standard) (s.pgu.bufWrite a data) hin
  rw [bufRead_bufWrite] at hread
  exact ⟨_, _, runOp_memWrite_eq (memWrite_of_inRange hs hin), runOp_memRead_eq hread, rfl, rfl⟩

/-! ### The bus (R42, R60) -/

theorem regBusAddr_lt (m : BusMap) (r : RegNum) {k : Nat} (hk : k < 8) :
    m.pguBase ≤ regBusAddr m r + k ∧ regBusAddr m r + k < m.pguBase + 256 := by
  have hr : r.toNat < 32 := r.isLt
  unfold regBusAddr; omega

theorem regBusAddr_inj (m : BusMap) {r r' : RegNum} {k k' : Nat} (hk : k < 8) (hk' : k' < 8)
    (h : regBusAddr m r + k = regBusAddr m r' + k') : r = r' ∧ k = k' := by
  unfold regBusAddr at h
  exact ⟨BitVec.eq_of_toNat_eq (by omega), by omega⟩

/-- The line that a bus access stands for: the register, or the buffer index, by the distance from its window's base. -/
def busLine (m : BusMap) : BusAccess → HostOp
  | .store addr bytes => .regWrite (BitVec.ofNat 5 ((addr - m.pguBase) / 8)) (wordOfBytes bytes)
  | .load addr => .regRead (BitVec.ofNat 5 ((addr - m.pguBase) / 8))
  | .writeBytes addr data => .memWrite (addr - m.bufBase) data
  | .readBytes addr n => .memRead (addr - m.bufBase) n

theorem regNum_of_regBusAddr (m : BusMap) (r : RegNum) : BitVec.ofNat 5 ((regBusAddr m r - m.pguBase) / 8) = r := by
  rw [regBusAddr, Nat.add_sub_cancel_left, Nat.mul_div_cancel_left _ (by decide), BitVec.ofNat_toNat,
    BitVec.setWidth_eq]

/-- The bus access of a script line gives the line back. -/
theorem busLine_of_busAccess {m : BusMap} {op : HostOp} {x : BusAccess} (h : busAccess m op = some x) :
    busLine m x = op := by
  cases op with
  | regWrite r v =>
    cases h
    rw [busLine, busStore, regNum_of_regBusAddr, wordOfBytes_le64]
  | regRead r => cases h; rw [busLine, regNum_of_regBusAddr]
  | memWrite a data => cases h; rw [busLine, bufBusAddr, Nat.add_sub_cancel_left]
  | memRead a n => cases h; rw [busLine, bufBusAddr, Nat.add_sub_cancel_left]
  | devWrite | devRead | reset => cases h

/-- Settles O45: a register's eight bytes lie within its own eighth of the window, apart from the buffer's. -/
theorem busAddressesDoNotCollide : Obligations.BusAddressesDoNotCollide := by
  refine ⟨fun m r r' k k' a hapart hk hk' ha => ⟨regBusAddr_inj m hk hk', ?_⟩, fun cfg m r hok => ?_,
    fun m op op' x h h' => (busLine_of_busAccess h).symm.trans (busLine_of_busAccess h')⟩
  · obtain ⟨hlo, hhi⟩ := regBusAddr_lt m r hk
    unfold windowsApart at hapart
    unfold bufBusAddr
    omega
  · have hr : r.toNat < 32 := r.isLt
    have haligned := hok.aligned
    unfold regBusAddr
    omega

end Sys2Proof.Machine
end

section
/-! PROOFS. The pass driver: what the host issues to configure a run and for one block (spec/50_host_pass_driver.md
R103, R107 to R109), and what it makes of the STATUS it reads (R110, spec/60_exceptions.md R127). -/

namespace Sys2Proof.Machine

/-! ### What the host issues -/

/-- Settles O56: the lines are those of R107 and R108, with the ones left out that R109 names. -/
theorem passesIssueTheModesCommands : Obligations.PassesIssueTheModesCommands := fun _ =>
  ⟨rfl, rfl, rfl, rfl, rfl⟩

theorem overrideLines_eq (o : Option Word) : overrideLines o =
    match o with
    | some v => [.regWrite 0x05#5 v, .regWrite 0x02#5 1#64]
    | none => [] := by
  cases o <;> rfl

/-- Settles O59: a request that is not rejected issues the configuration lines of R103. -/
theorem configurationSequence : Obligations.ConfigurationSequence := by
  intro h hok
  have hbegin : h.beginRun.phase = .configured ∧ h.beginRun.script = h.configLines := by
    unfold HostSide.beginRun; rw [hok]; exact ⟨rfl, rfl⟩
  refine ⟨hbegin.1, hbegin.2.trans ?_⟩
  unfold HostSide.configLines
  rw [overrideLines_eq]
  rfl

/-! ### What the host makes of a STATUS it has read -/

section
variable {h : HostSide} {p : Pgu} (hread : h.lastValue = some p.statusWord)
include hread

theorem judgeConfig_eq : h.judgeConfig =
    if p.errField = 0#8 then h.issue [rdLine .startBlock, rdLine .blockCount] .planned else h.finish .configError := by
  rw [HostSide.judgeConfig, hread, ← errOfStatus_statusWord]; rfl

theorem judgeBlock_eq (i : Nat) : h.judgeBlock i =
    if p.errField = 0#8 then { h with phase := .verifying (i + 1) }
    else if p.errField = ErrCode.mismatch.code then h.issue [rdLine .badOff] .reporting
    else h.finish (passFault p.errField) := by
  rw [HostSide.judgeBlock, hread, ← errOfStatus_statusWord]; rfl

theorem judgeConfig_of_fault {e : ErrCode} (he : p.err = some e) : h.judgeConfig.phase = .ended .configError := by
  rw [judgeConfig_eq hread, errField_of_err he, if_neg (code_ne_zero e), finish_phase]

theorem judgeBlock_of_clean (i : Nat) (he : p.err = none) : (h.judgeBlock i).phase = .verifying (i + 1) := by
  rw [judgeBlock_eq hread, if_pos ((errField_eq_zero_iff p).2 he)]

theorem judgeBlock_of_mismatch (i : Nat) (he : p.err = some .mismatch) :
    h.judgeBlock i = h.issue [rdLine .badOff] .reporting := by
  rw [judgeBlock_eq hread, errField_of_err he, if_neg (code_ne_zero _), if_pos rfl]

theorem judgeBlock_of_fault (i : Nat) {e : ErrCode} (he : p.err = some e) (hne : e ≠ .mismatch) :
    (h.judgeBlock i).phase = .ended (passFault e.code) := by
  rw [judgeBlock_eq hread, errField_of_err he, if_neg (code_ne_zero _), if_neg fun hc => hne (code_inj hc),
    finish_phase]

end

/-- The statuses of R110, none of which a valid EXIT_CONFIG makes ambiguous. -/
theorem exitStatus_spec {cfg : Config} (hcfg : cfg.Valid) (e : RunEnd) :
    (e.exitStatus cfg = 2 ↔ ∃ off, e = .mismatch off) ∧ (e.exitStatus cfg = 0 ↔ e = .success) := by
  cases e <;> simp [RunEnd.exitStatus, hcfg.exit_ne_two, hcfg.exit_ne_zero]

/-- Settles O55: the host reads the code of ERR out of STATUS, and each code falls in one class of R127. -/
theorem mismatchHasItsOwnExitStatus : Obligations.MismatchHasItsOwnExitStatus := by
  refine ⟨fun cfg e hcfg => ⟨(exitStatus_spec hcfg e).1, (exitStatus_spec hcfg e).2, rfl⟩, fun h p i hread => ?_⟩
  refine ⟨fun e => judgeConfig_of_fault hread, judgeBlock_of_clean hread i, fun he => ?_, fun e he hclass => ?_,
    fun e he hclass => ?_⟩
  · rw [judgeBlock_of_mismatch hread i he]; exact ⟨rfl, rfl⟩
  · rcases hclass with rfl | rfl | rfl | rfl | rfl <;> exact judgeBlock_of_fault hread i he nofun
  · rcases hclass with rfl | rfl | rfl | rfl | rfl | rfl <;> exact judgeBlock_of_fault hread i he nofun

end Sys2Proof.Machine
end

section
/-! PROOFS. The two device transfers: what each moves under each answer of the device, where they stop and where they
fail (spec/30_encoding.md R58, spec/50_host_pass_driver.md R104). -/

namespace Sys2Proof.Machine

/-! ### The device's bytes -/

theorem devByte_congr {h h' : HostSide} (hdev : h.dev = h'.dev) (x : Nat) : h.devByte x = h'.devByte x := by
  unfold HostSide.devByte; rw [hdev]

/-- A byte of the device after a store: the stored one inside, the old one outside. -/
theorem devByte_devStore (h : HostSide) (a x : Nat) (d : List Byte) :
    (h.devStore a d).devByte x = if hx : a ≤ x ∧ x < a + d.length then d[x - a]'(by omega) else h.devByte x := by
  unfold HostSide.devByte
  rw [devStore_dev, get_write]
  by_cases hx : a ≤ x ∧ x < a + d.length
  · have hlt : x - a < d.length := by omega
    simp [hx, List.getElem?_eq_getElem hlt]
  · simp [hx]

theorem devByte_devStore_inside (h : HostSide) (a : Nat) {d : List Byte} {i : Nat} (hi : i < d.length) :
    d[i]? = some ((h.devStore a d).devByte (a + i)) := by
  rw [devByte_devStore, dif_pos ⟨by omega, by omega⟩, List.getElem?_eq_getElem hi]
  simp

theorem devByte_devStore_outside (h : HostSide) {a x : Nat} {d : List Byte} (hx : x < a ∨ a + d.length ≤ x) :
    (h.devStore a d).devByte x = h.devByte x := by
  rw [devByte_devStore, dif_neg (by omega)]

@[simp] theorem devBytes_length (h : HostSide) (a n : Nat) : (h.devBytes a n).length = n := by simp [HostSide.devBytes]

theorem devBytes_getElem? (h : HostSide) (a : Nat) {n i : Nat} (hi : i < n) :
    (h.devBytes a n)[i]? = some (h.devByte (a + i)) := by
  simp [HostSide.devBytes, hi]

/-! ### What an answer moves -/

theorem moved_altered {data asked : List Byte} (h : data.length = asked.length) :
    (DevAnswer.altered data).moved asked = some data := if_pos h

/-- The answers that fail a transfer of `n` bytes: an I/O failure, and bytes of another number (log 5). -/
def DevAnswer.Fails (x : DevAnswer) (n : Nat) : Prop :=
  (∃ stored, x = .ioError stored) ∨ ∃ data, x = .altered data ∧ data.length ≠ n

theorem moved_of_fails {x : DevAnswer} {asked : List Byte} (h : x.Fails asked.length) : x.moved asked = none := by
  obtain ⟨stored, rfl⟩ | ⟨data, rfl, hlen⟩ := h
  · rfl
  · exact if_neg hlen

/-! ### The transfers, by what moves -/

theorem pastDevice_iff (s : State) :
    s.pastDevice = true ↔ s.pgu.len.toNat ≠ 0 ∧ s.host.devSize.toNat < s.pgu.start.toNat + s.pgu.len.toNat :=
  decide_eq_true_iff

theorem not_pastDevice {s : State}
    (h : s.pgu.len.toNat = 0 ∨ s.pgu.start.toNat + s.pgu.len.toNat ≤ s.host.devSize.toNat) : ¬ s.pastDevice = true := by
  rw [pastDevice_iff]; omega

theorem devWrite_of_moved {cfg : Config} {s : State} {data : List Byte} (hpast : ¬ s.pastDevice = true)
    (h : s.host.nextAnswer.moved (s.pgu.memRead cfg 0 s.pgu.len.toNat).2 = some data) :
    devWrite cfg s = .next { pgu := (s.pgu.memRead cfg 0 s.pgu.len.toNat).1
                             host := s.host.dropAnswer.devStore s.pgu.start.toNat data } := by
  unfold devWrite; rw [if_neg hpast]; dsimp only; rw [h]

theorem devWrite_of_fails {cfg : Config} {s : State} (hpast : ¬ s.pastDevice = true)
    (h : s.host.nextAnswer.Fails s.pgu.len.toNat) :
    devWrite cfg s = .next
      { pgu := (s.pgu.memRead cfg 0 s.pgu.len.toNat).1
        host := (s.host.dropAnswer.devStore s.pgu.start.toNat
          (s.host.nextAnswer.leftBehind s.pgu.len.toNat)).ioFailed } := by
  have hmoved := moved_of_fails ((memRead_length cfg s.pgu 0 s.pgu.len.toNat).symm ▸ h)
  unfold devWrite; rw [if_neg hpast]; dsimp only; rw [hmoved, memRead_length]

theorem devRead_of_moved {cfg : Config} {s : State} {data : List Byte} (hpast : ¬ s.pastDevice = true)
    (h : s.host.nextAnswer.moved (s.host.devBytes s.pgu.start.toNat s.pgu.len.toNat) = some data) :
    devRead cfg s = .next { pgu := s.pgu.memWrite cfg 0 data, host := s.host.dropAnswer } := by
  unfold devRead; rw [if_neg hpast, h]

theorem devRead_of_fails {cfg : Config} {s : State} (hpast : ¬ s.pastDevice = true)
    (h : s.host.nextAnswer.Fails s.pgu.len.toNat) :
    devRead cfg s = .next { pgu := s.pgu, host := s.host.dropAnswer.ioFailed } := by
  have hmoved := moved_of_fails ((devBytes_length s.host s.pgu.start.toNat s.pgu.len.toNat).symm ▸ h)
  unfold devRead; rw [if_neg hpast, hmoved]

/-! ### A transfer without an error -/

/-- DEVWR of bytes within the buffer leaves the unit and stores what the answer moves. -/
theorem runOp_devWrite_of_moved {s : State} {data : List Byte} (hpast : ¬ s.pastDevice = true)
    (hcap : s.pgu.len.toNat ≤ 134217728)
    (h : s.host.nextAnswer.moved (s.pgu.bufRead 0 s.pgu.len.toNat) = some data) :
    runOp .devWrite s = .next { s with host := s.host.dropAnswer.devStore s.pgu.start.toNat data } := by
  have hread := memRead_of_inRange (cfg := Config.standard) s.pgu (a := 0) (n := s.pgu.len.toNat)
    (by rw [Nat.zero_add]; exact hcap)
  refine (devWrite_of_moved hpast (by rwa [hread])).trans ?_
  rw [hread]

/-- DEVRD of bytes within the buffer stores what the answer moves at the start of BUF, in a not-faulted unit. -/
theorem runOp_devRead_of_moved {s : State} {data : List Byte} (hs : s.clean) (hpast : ¬ s.pastDevice = true)
    (hcap : s.pgu.len.toNat ≤ 134217728)
    (h : s.host.nextAnswer.moved (s.host.devBytes s.pgu.start.toNat s.pgu.len.toNat) = some data) :
    runOp .devRead s = .next { pgu := s.pgu.bufWrite 0 data, host := s.host.dropAnswer } := by
  have hlen : data.length = s.pgu.len.toNat := (moved_length _ _ _ h).trans (devBytes_length _ _ _)
  rw [← memWrite_of_inRange (cfg := Config.standard) hs (by rw [Nat.zero_add, hlen]; exact hcap)]
  exact devRead_of_moved hpast h

/-- Settles O52: the answer moves the first LEN bytes of BUF, or its own, to the range. -/
theorem devWriteMovesTheBlock : Obligations.DevWriteMovesTheBlock := by
  rintro s a n rfl rfl _ hcap hin
  have hpast := not_pastDevice (s := s) (.inr hin)
  refine ⟨fun hans => ?faithful, fun data hans hlen => ?altered⟩
  case faithful =>
    refine ⟨_, runOp_devWrite_of_moved hpast hcap (by rw [hans]; rfl), fun x => ?_⟩
    refine (devByte_congr rfl x).trans ((devByte_devStore s.host _ x _).trans ?_)
    simp [Pgu.bufRead]
  case altered =>
    refine ⟨_, runOp_devWrite_of_moved hpast hcap (by rw [hans]; exact moved_altered (by simpa using hlen)),
      fun i hi => ?_, fun x hx => ?_⟩
    · exact devByte_devStore_inside s.host _ (hlen.symm ▸ hi)
    · exact devByte_devStore_outside s.host (hlen.symm ▸ hx)

/-- Settles O53: the answer moves the range's bytes, or its own, to the start of BUF. -/
theorem devReadLoadsTheBlock : Obligations.DevReadLoadsTheBlock := by
  rintro s a n hs rfl rfl _ hcap hin
  have hpast := not_pastDevice (s := s) (.inr hin)
  refine ⟨fun hans => ?faithful, fun data hans hlen => ?altered⟩
  case faithful =>
    refine ⟨_, runOp_devRead_of_moved hs hpast hcap (by rw [hans]; rfl), fun x => ?_⟩
    refine (bufByte_bufWrite s.pgu 0 x _).trans ?_
    simp [HostSide.devBytes]
  case altered =>
    refine ⟨_, runOp_devRead_of_moved hs hpast hcap (by rw [hans]; exact moved_altered (by simpa using hlen)),
      fun i hi => ?_, fun x hx => bufByte_bufWrite_from s.pgu hlen hx⟩
    have hbyte := bufByte_bufWrite_inside s.pgu 0 (data := data) (hlen.symm ▸ hi)
    rwa [Nat.zero_add] at hbyte

/-! ### Where a transfer stops, moves nothing, or fails -/

theorem write_nil_zero (m : Mem) : Mem.write m 0 [] = m := by simp [Mem.write, Mem.cells]

theorem runOp_of_pastDevice {s : State} {op : HostOp} (hop : op = .devWrite ∨ op = .devRead)
    (hpast : s.pastDevice = true) : runOp op s = .fault .deviceRange := by
  rcases hop with rfl | rfl
  · exact if_pos hpast
  · exact if_pos hpast

theorem memWrite_nil_zero (cfg : Config) (p : Pgu) : p.memWrite cfg 0 [] = p := by
  unfold Pgu.memWrite Pgu.bufWrite
  rw [outOfRange_of_le cfg 0 _ (Nat.zero_le _), write_nil_zero]
  simp

/-- With LEN = 0 a transfer that does not fail uses up the device's answer and moves no byte (log 12). -/
theorem runOp_of_emptyTransfer {s : State} {op : HostOp} (hop : op = .devWrite ∨ op = .devRead)
    (hn : s.pgu.len.toNat = 0) (hans : s.host.nextAnswer = .faithful ∨ s.host.nextAnswer = .altered []) :
    ∃ m : Mem, runOp op s = .next { s with host := { s.host with dev := m, answers := s.host.answers.tail } } ∧
      ∀ x, HostSide.devByte { s.host with dev := m } x = s.host.devByte x := by
  have hpast := not_pastDevice (.inl hn)
  have hmoved : s.host.nextAnswer.moved [] = some [] := by rcases hans with h | h <;> rw [h] <;> rfl
  rcases hop with rfl | rfl
  · refine ⟨_, runOp_devWrite_of_moved hpast (by omega) (by rw [hn]; exact hmoved), fun x => ?_⟩
    exact devByte_devStore_outside s.host (by rw [List.length_nil]; omega)
  · refine ⟨s.host.dev, (devRead_of_moved hpast (by rw [hn]; exact hmoved)).trans ?_, fun x => rfl⟩
    rw [memWrite_nil_zero]; rfl

/-- After a write that fails with an I/O error the range holds the bytes the answer left, and past them the old ones. -/
theorem devByte_of_leftBehind (h : HostSide) (a : Nat) {n i : Nat} (stored : List Byte) (hi : i < n) :
    (h.devStore a ((DevAnswer.ioError stored).leftBehind n)).devByte (a + i) = stored.getD i (h.devByte (a + i)) := by
  have hlen : (stored.take n).length = min n stored.length := List.length_take
  rw [DevAnswer.leftBehind]
  by_cases hlt : i < stored.length
  · have hbyte := devByte_devStore_inside h a (d := stored.take n) (i := i) (by omega)
    rw [List.getElem?_take_of_lt hi] at hbyte
    rw [List.getD_eq_getElem?_getD, hbyte]; rfl
  · rw [devByte_devStore_outside h (by omega), List.getD_eq_default _ _ (by omega)]

/-- Settles O54: a transfer past the device's end stops, an empty one moves nothing, and one that fails ends the run;
DEVWR's failure leaves what the answer says within the range, and DEVRD's nothing. -/
theorem deviceTransfersStopOrFail : Obligations.DeviceTransfersStopOrFail := by
  rintro s op a n hop rfl rfl
  refine ⟨fun hn hend => runOp_of_pastDevice hop ((pastDevice_iff s).2 ⟨hn, hend⟩),
    runOp_of_emptyTransfer hop, fun hin hans => ?_⟩
  have hpast := not_pastDevice hin
  have hfails : s.host.nextAnswer.Fails s.pgu.len.toNat := hans
  rcases hop with rfl | rfl
  · refine ⟨_, devWrite_of_fails hpast hfails, rfl, rfl, fun hcap => ?_, nofun, fun x hx => ?_,
      fun stored _ hstored i hi => ?_⟩
    · exact congrArg Prod.fst (memRead_of_inRange (cfg := Config.standard) s.pgu ((Nat.zero_add _).le.trans hcap))
    · have hlen := leftBehind_length s.host.nextAnswer s.pgu.len.toNat
      exact devByte_devStore_outside s.host (by omega)
    · rw [hstored]
      exact devByte_of_leftBehind s.host _ stored hi
  · exact ⟨_, devRead_of_fails hpast hfails, rfl, rfl, fun _ => rfl, fun _ => rfl, fun _ _ => rfl, nofun⟩

end Sys2Proof.Machine
end

section
/-! PROOFS. Every primitive completes (spec/60_exceptions.md R129), and the machine under any valid parameters
(spec/00_scope.md R6). -/

namespace Sys2Proof.Machine

/-! ### Every primitive completes (R129) -/

theorem exec_completes (i : Instr) (s : State) : ∃ t, exec i s = .next t :=
  ⟨_, (exec_eq i s).trans (execUnder_eq _ i s)⟩

theorem regWrite_completes (r : RegNum) (v : Word) (s : State) : ∃ t, runOp (.regWrite r v) s = .next t := by
  change ∃ t, regWrite exec r v s = .next t
  unfold regWrite cmdWord
  split
  · split
    · exact ⟨_, rfl⟩
    · split
      · exact exec_completes _ s
      · exact ⟨_, rfl⟩
  · exact ⟨_, rfl⟩

theorem devWrite_completes {cfg : Config} {s : State} (hpast : ¬ s.pastDevice = true) :
    ∃ t, devWrite cfg s = .next t := by
  unfold devWrite; rw [if_neg hpast]; dsimp only; split <;> exact ⟨_, rfl⟩

theorem devRead_completes {cfg : Config} {s : State} (hpast : ¬ s.pastDevice = true) :
    ∃ t, devRead cfg s = .next t := by
  unfold devRead; rw [if_neg hpast]; split <;> exact ⟨_, rfl⟩

/-- A line of the queue completes, but for a device transfer past the device's end. -/
theorem runOp_completes {op : HostOp} {s : State}
    (h : op = .devWrite ∨ op = .devRead → ¬ s.pastDevice = true) : ∃ t, runOp op s = .next t := by
  cases op with
  | regWrite r v => exact regWrite_completes r v s
  | regRead | memWrite | memRead | reset => exact ⟨_, rfl⟩
  | devWrite => exact devWrite_completes (h (.inl rfl))
  | devRead => exact devRead_completes (h (.inr rfl))

/-- A transfer of no bytes can be out of range only above the buffer's end (log 12). -/
theorem lt_of_outOfRange_zero {cfg : Config} {a : Nat} (h : outOfRange cfg a 0 = true) : cfg.bufCap < a := by
  by_contra hle
  rw [outOfRange_of_le cfg a 0 (Nat.not_lt.1 hle)] at h
  cases h

/-- What raising E_BUFRANGE makes of a unit: nothing if it is faulted, else ERR takes the code alone. -/
theorem raise_cases (p : Pgu) (e : ErrCode) : p.raise e = p ∨ p.err = none ∧ p.raise e = { p with err := some e } := by
  by_cases hp : p.err = none
  · exact .inr ⟨hp, raise_of_clean p e hp⟩
  · exact .inl (raise_of_faulted p e hp)

/-- `MemRead` of no bytes answers none and may raise E_BUFRANGE above the buffer's end (log 12). -/
theorem memRead_zero (cfg : Config) (p : Pgu) (a : Nat) : (p.memRead cfg a 0).2 = [] ∧
    ((p.memRead cfg a 0).1 = p ∨
      cfg.bufCap < a ∧ p.err = none ∧ (p.memRead cfg a 0).1 = { p with err := some .bufRange }) := by
  refine ⟨List.eq_nil_of_length_eq_zero (memRead_length cfg p a 0), ?_⟩
  unfold Pgu.memRead
  split
  · next hout => exact (raise_cases p .bufRange).imp id fun h => ⟨lt_of_outOfRange_zero hout, h⟩
  · exact .inl rfl

/-- `MemWrite` of no bytes changes no byte of BUF and may raise E_BUFRANGE above the buffer's end (log 12). -/
theorem memWrite_nil (cfg : Config) (p : Pgu) (a : Nat) :
    p.memWrite cfg a [] = { p with err := (p.memWrite cfg a []).err, buf := (p.memWrite cfg a []).buf } ∧
    ((p.memWrite cfg a []).err = p.err ∨
      cfg.bufCap < a ∧ p.err = none ∧ (p.memWrite cfg a []).err = some .bufRange) ∧
    ∀ x, (p.memWrite cfg a []).bufByte x = p.bufByte x := by
  unfold Pgu.memWrite
  split_ifs with hp hout
  · exact ⟨rfl, .inl rfl, fun _ => rfl⟩
  · have hclean : p.err = none := (not_faulted_eq p).1 (Bool.eq_false_of_not_eq_true hp)
    rw [raise_of_clean p _ hclean]
    exact ⟨rfl, .inr ⟨lt_of_outOfRange_zero hout, hclean, rfl⟩, fun _ => rfl⟩
  · exact ⟨rfl, .inl rfl, fun x => bufByte_bufWrite_outside p (by rw [List.length_nil]; omega)⟩

/-- Settles O7: a line stops for a device transfer past the device's end alone, and a transfer of no bytes does what the
two lemmas above say. -/
theorem everyPrimitiveCompletes : Obligations.EveryPrimitiveCompletes := by
  refine ⟨exec_completes, fun s op rest hscript hdev => ?_, fun s a => ⟨⟨_, rfl, ?_, ?_⟩, ⟨_, rfl, rfl, ?_⟩⟩⟩
  · rw [step_of_line s op rest hscript]
    exact runOp_completes fun hop => not_pastDevice (s := s.popScript rest) (hdev hop)
  · exact congrArg (fun data => s.host.receive (.bytes data)) (memRead_zero Config.standard s.pgu a).1
  · exact (memRead_zero Config.standard s.pgu a).2
  · exact memWrite_nil Config.standard s.pgu a

/-! ### The machine under any valid parameters (R6) -/

theorem stepUnder_of_line (cfg : Config) {s : State} {op : HostOp} {rest : List HostOp}
    (h : s.host.script = op :: rest) : stepUnder cfg s = runOpUnder cfg op (s.popScript rest) := by
  unfold stepUnder stepWith; rw [h]

/-- In a not-faulted state the write of a command's word runs that command under the same parameters. -/
theorem runOpUnder_command {cfg : Config} {s : State} {i : Instr} {q : Pgu} (hs : s.clean)
    (h : commandEffect cfg i s.pgu = q) :
    runOpUnder cfg (.regWrite 0x00#5 (encode i)) s = .next { s with pgu := q } := by
  change cmdWord (execUnder cfg) (encode i) s = _
  rw [cmdWord, if_neg (by simp [(not_faulted_eq s.pgu).2 hs]), (decodeWord_eq_ok_iff _ i).2 rfl, ← h]
  exact runCommand_of_clean _ s hs

/-- CHOOSE's checks on the size it computes, in their order, under any parameters (spec/40_block_range.md R64). -/
theorem runOpUnder_choose (cfg : Config) {s : State} (hs : s.clean) (hd : s.pgu.diskSize.toNat ≠ 0) :
    runOpUnder cfg (.regWrite 0x00#5 (encode .choose)) s =
      if s.pgu.badSize s.pgu.chosenSize = true then .next { s with pgu := { s.pgu with err := some .blkSize } }
      else if cfg.bufCap < s.pgu.chosenSize then .next { s with pgu := { s.pgu with err := some .bufCap } }
      else .next { s with pgu := s.pgu.setBlockSize s.pgu.chosenSize } := by
  split_ifs with hbad hcap
  · exact runOpUnder_command hs (choose_of_badSize cfg hs hd hbad)
  · exact runOpUnder_command hs (choose_of_large hs hd hbad hcap)
  · exact runOpUnder_command hs (choose_of_valid hd hbad (Nat.not_lt.1 hcap))

/-- A buffer read of a byte or more, under any parameters (spec/20_memory.md R43). -/
theorem runOpUnder_memRead (cfg : Config) {s : State} {a n : Nat} (hs : s.clean) (hn : n ≠ 0) :
    runOpUnder cfg (.memRead a n) s = .next
      { pgu := if cfg.bufCap < a + n then { s.pgu with err := some .bufRange } else s.pgu
        host := s.host.receive (.bytes (if cfg.bufCap < a + n then zeros n else s.pgu.bufRead a n)) } := by
  change Host.Outcome.next (memRead cfg a n s) = _
  rw [memRead]
  by_cases hpast : cfg.bufCap < a + n
  · rw [memRead_of_pastEnd s.pgu hn hpast, if_pos hpast, if_pos hpast, raise_of_clean _ _ hs]
  · rw [memRead_of_inRange s.pgu (Nat.not_lt.1 hpast), if_neg hpast, if_neg hpast]

/-- Settles O60: each clause is the unit's own rule under the parameters `cfg`, run by a line of the queue. -/
theorem parametersDecideTheMachine : Obligations.ParametersDecideTheMachine := by
  intro cfg s hcfg
  refine ⟨fun op rest => stepUnder_of_line cfg, fun hs hd hov hmin hmul => ?override,
    fun hs hd hov sEff raw b hsEff hraw hb => ?computed, fun b hs hk hok hbeq hb => ?fill,
    fun n hs hk hok hneq hn hmul hle => ?invert, fun a n hs hn => runOpUnder_memRead cfg hs (Nat.ne_of_gt hn),
    fun a data hs hlen => ?memWrite⟩
  case override =>
    have hbad : ¬ s.pgu.badSize s.pgu.chosenSize = true := by
      rw [chosenSize_of_override hov, badSize_of_override _ hov]; omega
    rw [runOpUnder_choose cfg hs hd, if_neg hbad, chosenSize_of_override hov, Pgu.setBlockSize, BitVec.ofNat_toNat,
      BitVec.setWidth_eq]
  case computed =>
    have hsize : s.pgu.chosenSize = b := by rw [chosenSize_of_computed hov, hb, hraw, hsEff]; rfl
    have hfits : b ≤ 134217728 := hb ▸ Nat.min_le_right _ _
    refine ⟨BitVec.ofNat 64 b, toNat_ofNat_of_le_word 134217728#64 hfits, ?_⟩
    rw [runOpUnder_choose cfg hs hd, hsize]
    simp only [badSize_of_computed _ hov]
    rfl
  case fill =>
    subst hbeq
    exact ⟨_, runOpUnder_command hs (fill_of_key cfg hb hk),
      bufWrite_prefix s.pgu (enc_bufRead_length hcfg s.pgu (inDomain_blockSize hok hb))⟩
  case invert =>
    subst hneq
    have hl : ¬ s.pgu.badLen = true := by rw [badLen_iff]; omega
    exact ⟨_, runOpUnder_command hs (invert_of_goodLen cfg (by omega) hk hl),
      bufWrite_prefix s.pgu (dec_bufRead_length hcfg s.pgu (inDomain_len hok hl))⟩
  case memWrite =>
    have ran {q : Pgu} (h : s.pgu.memWrite cfg a data = q) :
        runOpUnder cfg (.memWrite a data) s = .next { s with pgu := q } := h ▸ rfl
    exact ⟨fun hpast => ran (memWrite_of_pastEnd hs (Nat.ne_of_gt hlen) hpast),
      fun hin => ⟨_, ran (memWrite_of_inRange hs hin), fun i hi => bufByte_bufWrite_inside s.pgu a hi,
        fun x hx => bufByte_bufWrite_outside s.pgu hx⟩⟩

end Sys2Proof.Machine
end
